-- ==== Sys2Proof/Word.lean ====
section
/-!
DEFINITION. The plain types of the P1624 that are words or numbered things: bytes, link words, converter codes,
channels and the two gains of a channel. Arithmetic on them stands in Machine/Ops.lean.
-/

namespace Sys2Proof

/-- One byte of the control link. -/
abbrev Byte := BitVec 8

/-- One 32-bit word of the readout link (section 8.4). -/
abbrev LinkWord := BitVec 32

/-- One converter code, 0..4095 (R2). -/
abbrev Code := BitVec 12

/-- A 16-bit channel mask; bit n names channel n (R17, R196). -/
abbrev ChanMask := BitVec 16

/-- The crossing serial, a free-running 32-bit count; all comparisons are modulo 2^32 (R27). -/
abbrev Serial := BitVec 32

/-- An event number, 0..16,777,215 (R32). -/
abbrev EventNum := BitVec 24

/-- One of the sixteen channels (R3). -/
abbrev Chan := Fin 16

/-- The two gains of a channel; HG is coded 0 and LG 1 (R196). -/
inductive Gain where
  | hg
  | lg
  deriving DecidableEq, Repr

/-- A value for each of the two gains of one channel. -/
structure PerGain (α : Type) where
  hg : α
  lg : α
  deriving DecidableEq, Repr

/-- The value of one gain. -/
def PerGain.get {α : Type} (v : PerGain α) : Gain → α
  | .hg => v.hg
  | .lg => v.lg

/-- Replace the value of one gain. -/
def PerGain.put {α : Type} (v : PerGain α) (g : Gain) (x : α) : PerGain α :=
  match g with
  | .hg => { v with hg := x }
  | .lg => { v with lg := x }

/-- The codes one sample arrival delivers, one HG and one LG code per channel (R2). -/
abbrev Samples := Vector (PerGain Code) 16

end Sys2Proof
end

