-- ==== Sys2Proof/Config.lean ====
section
/-!
DEFINITION. What the part fixes for good (its capacities, R198 and the chapters that own them), the orders it leaves open,
and the model's free values: constants with no body, so that nothing can be proved of what they answer.
-/

namespace Sys2Proof.Config

/-- Ring slots per channel (R6, R198). -/
abbrev ringSlots : Nat := 512
/-- Records the Accept Queue holds at most (R54, R198). -/
abbrev maxRecords : Nat := 32
/-- Snapshot slots (R54, R198). -/
abbrev snapshotSlots : Nat := 16
/-- Entries a copy of the Readout List holds at most (R126, R198). -/
abbrev maxEntries : Nat := 32
/-- Pulse records the pending pulse list holds at most (R169, R198). -/
abbrev maxPulses : Nat := 8
/-- Words of the output buffer (R151, R198). -/
abbrev bufferWords : Nat := 4096
/-- Data words of a block at most (R154). -/
abbrev blockWords : Nat := 64
/-- The most credits the transmitter holds (R156). -/
abbrev maxCredits : Nat := 15
/-- The top of a pedestal estimate, in sixteenth-codes (R75). -/
abbrev pedestalTop : Nat := 65520
/-- The top of the measurement counter (R174). -/
abbrev measureTop : Nat := 16777215
/-- Frames the receive buffer holds at most (R193). -/
abbrev maxFrames : Nat := 2
/-- Consecutive good frames that lock the link (R24). -/
abbrev lockRun : Nat := 64
/-- Consecutive bad frames that lose the link (R25). -/
abbrev lossCount : Nat := 8
/-- Crossings the synthesiser holds before it is LOCKED (R35). -/
abbrev lockCrossings : Nat := 2048

end Sys2Proof.Config

namespace Sys2Proof

/-- The things one timing-link frame brings about at the blocks it is handed to (R26), apart from the Timing Receiver's
own counting: the Clock Synthesiser's lock counter, the Slow Integrator Monitor's settle or gate, the injector's expiry
of pending pulses, its firing, the pulse request, the accept, and the transmitter's stall timer. -/
inductive FrameAct where
  | lock
  | gate
  | expire
  | fire
  | request
  | accept
  | stall
  deriving DecidableEq, Repr

/-- The order in which R26 tells them: the crossing arrival at each block, then the fast commands. -/
def frameActs : List FrameAct := [.lock, .gate, .expire, .fire, .request, .accept, .stall]

end Sys2Proof

namespace Sys2Proof.Config

/-- FREE VALUE (assumption log 4): the order in which the blocks take what one frame hands them, where the spec says that
either may be taken first or says nothing, and the order can be seen. A list that is no rearrangement of `frameActs`
stands for `frameActs` itself. -/
opaque frameOrder : Nat → List FrameAct

/-- FREE VALUE (assumption log 5): whether the stall timer's crossing arrival comes after the accept of the same frame,
and so sees words that the accept brought into an output buffer that held none to send. -/
opaque stallAfterAccept : Nat → Bool

/-- FREE VALUE (assumption log 6): what stands in the first-event field of a condition record whose first event is absent,
in a reply to cond (R188). -/
opaque absentEvent : Nat → EventNum

/-- FREE VALUE (assumption log 31), for each reply by its number: where it is the reply of a cclr, how many events of the same
moment take effect after the clear and before it is formed (R187). -/
opaque sameMoment : Nat → Nat

/-- FREE VALUE (assumption log 3), for each reply by its number: how many events come while it is being sent, before its last byte
has gone (R194). -/
opaque replyTime : Nat → Nat

end Sys2Proof.Config
end

