-- ==== Sys2Proof/Syntax.lean ====
section
/-!
DEFINITION. The commands of the P1624, one constructor per row of spec/opcode_table.json, in the table's order, with
their operands. An event row carries what arrives: the codes of a sample arrival, the eight bits of a timing-link frame,
a word of the readout link, bytes of the control link. A row of a control-link command carries the request's tag and
payload bytes. Rows that the table words as the arrival that brings something about (PRIMING_COMPLETE, LINK_LOCK, ...)
carry that arrival's operands (assumption log 2).
-/

namespace Sys2Proof

/-- A request as the Control Port executes it, apart from its name: the tag and the payload bytes (R191). -/
structure Request where
  tag : Byte
  payload : List Byte
  deriving DecidableEq, Repr

/-- A complete request frame in the receive buffer (R193); the four name bytes stand as one 32-bit value, the first
character in the top byte (R199). -/
structure Frame where
  tag : Byte
  name : BitVec 32
  payload : List Byte
  deriving DecidableEq, Repr

/-- The commands: every row of the opcode table. -/
inductive Instr where
  /-- POWER_ON (R40). Power-on places every block in its power-on state: acquisition STANDBY, link NO_SIGNAL, synthesiser UNLOCKED, queues empty, settings at their defaults. -/
  | powerOn
  /-- SAMPLE_ARRIVAL (R2). At each sample clock period while the synthesiser is LOCKED, each enabled channel delivers one HG and one LG code to the pipeline, the tracker and the trim engine. -/
  | sampleArrival (x : Samples)
  /-- PRIMING_COMPLETE (R44). The written sample arrival that brings the device fill count to L moves PRIMING to RUNNING. -/
  | primingComplete (x : Samples)
  /-- BLOCK_COMPLETE (R79). When an accumulator reaches 2^m samples, the block mean is formed; it is discarded if blanked, otherwise P is updated and the trim check is made. -/
  | blockComplete (x : Samples)
  /-- TIMING_FRAME (R22). An eight-bit timing-link frame arrives and is checked; it marks one crossing and, if it passes in LOCKED, its fast commands act. -/
  | timingFrame (f : Byte)
  /-- LINK_LOCK (R24). The run count reaching 64 in SEEKING takes the link into LOCKED at the candidate alignment. -/
  | linkLock (f : Byte)
  /-- LINK_LOSS (R25). The failure count reaching 8 in LOCKED sends the link to SEEKING, latches TL_LOSS and clears the aligned flag. -/
  | linkLoss (f : Byte)
  /-- DELAY_EXPIRY (R167). The crossing arrival that brings the serial to q plus D ends the delay, and the first pulse of the train fires. -/
  | delayExpiry (f : Byte)
  /-- PULSE_FIRING (R168). When the spacing expires, a pulse drives the masked channels, sets their INJ counts and joins the pending list (or latches CAL_LIST_FULL), and the train may end. -/
  | pulseFiring (f : Byte)
  /-- PENDING_PULSE_EXPIRY (R171). A pending pulse record lying before s minus L/S is removed, CAL_MISSED latches and MISSED counts. -/
  | pendingPulseExpiry (f : Byte)
  /-- LOCK_ACQUIRED (R35). The lock counter reaching 2048 in ACQUIRING makes the synthesiser LOCKED, and sample arrivals begin. -/
  | lockAcquired (f : Byte)
  /-- PHASE_SLIP (R36). A detected phase slip restarts acquisition of lock, and in LOCKED it also latches CLK_UNLOCK. -/
  | phaseSlip
  /-- CROSSING_CLOCK_LOSS (R23). The crossing clock disappears: the link enters NO_SIGNAL, the synthesiser enters UNLOCKED, and TL_LOSS and CLK_UNLOCK latch where the rules say. -/
  | crossingClockLoss
  /-- SETTLE_EXPIRY (R176). The settle count of the Slow Integrator Monitor reaching 0 clears the measurement counter and opens the gate. -/
  | settleExpiry (f : Byte)
  /-- CONVERTER_PULSE (R176). A VFC pulse from the selected channel arriving in GATE adds one to the measurement counter, which saturates at its top. -/
  | converterPulse (c : Chan)
  /-- GATE_EXPIRY (R177). The gate count reaching 0 writes the channel's reading, latching INT_OVERWRITE, INT_OVF and INT_HIGH as due, and the scan moves on. -/
  | gateExpiry (f : Byte)
  /-- STALL_TIMEOUT (R159). The stall timer reaching the stall limit times 256 while the transmitter is waiting latches RL_STALL once for the episode. -/
  | stallTimeout (f : Byte)
  /-- CREDIT_FRAME (R156). An inbound credit frame adds its count up to 15, or is discarded with RL_CREDIT_ERR, and RL_CREDIT_OVF latches on a clamp. -/
  | creditFrame (w : LinkWord)
  /-- FRAME_BOUNDARY (R153). At each outbound frame boundary the transmitter sends a waiting throttle frame, begins a block, or sends an idle word. -/
  | frameBoundary
  /-- BLOCK_COMPLETION (R155). After the CRC word is sent, the block's data words leave the buffer, and a READY fragment that now fits is appended. -/
  | blockCompletion
  /-- RECORD_START (R141). An IDLE builder takes the head record: a pending commit is applied, the header fields are copied, and BUILDING begins. -/
  | recordStart
  /-- ENTRY_COMPLETION (R125). The Reconstruction Unit completes one entry, hands the builder an emitted or suppressed result, and hands over SUPPRESSED and LG_OVF occurrences. -/
  | entryCompletion
  /-- FRAGMENT_APPEND (R145). A READY fragment that fits enters the output buffer whole with the class summary and source id; the record and its slot are released. -/
  | fragmentAppend
  /-- DRAIN_COMPLETE (R48). DRAINING with no record, the builder IDLE and the buffer empty enters STANDBY, applying a pending commit with LIST_SWAP_STOP. -/
  | drainComplete
  /-- TRIM_ROUND_COMPLETE (R85). At the 320th sample arrival of a long-trim round, each channel-gain takes its mean and its decision, finishes if due, and the next round begins. -/
  | trimRoundComplete (x : Samples)
  /-- MANUAL_SETTLE_EXPIRY (R94). The manual-mode settle count reaches 0, and a waiting trms measurement begins summing. -/
  | manualSettleExpiry (x : Samples)
  /-- TRMS_COMPLETE (R95). At the 256th summed sample arrival the mean is kept as valid, and the trms reply is sent. -/
  | trmsComplete (x : Samples)
  /-- RSET_COMPLETE (R49). When the begun block has finished and any BUSY-OFF has been sent, the rset reply is sent. -/
  | rsetComplete
  /-- REQUEST_FRAME (R193). A request frame is taken whole: one with a bad length or CRC is discarded with CTL_CRC, one meeting a full buffer with CTL_OVERRUN, and a good one joins the receive buffer. -/
  | requestFrame (bytes : List Byte)
  /-- INTER_BYTE_TIMEOUT (R192). More than 1 ms between bytes in FRAME discards the frame, latches CTL_TIMEOUT and returns the receiver to HUNT. -/
  | interByteTimeout
  /-- UNKNOWN_COMMAND (R195). A request naming no command of the part is answered UNKNOWN with an empty payload. -/
  | unknownCommand (name : BitVec 32) (r : Request)
  /-- CHAN (R4). Writes or reads one channel record. -/
  | chan (r : Request)
  /-- PIPE (R15). Writes or reads the latency and window, clamping L. -/
  | pipe (r : Request)
  /-- FRZE (R17). Freezes the named channels, or reads the freeze mask and the refill counts. -/
  | frze (r : Request)
  /-- THAW (R18). Thaws the named frozen channels and sets their refill counts to 0. -/
  | thaw (r : Request)
  /-- PEEK (R20). Returns slots of a frozen channel's ring. -/
  | peek (r : Request)
  /-- TURN (R31). Writes or reads the turn length and quiet range, with link and counter state. -/
  | turn (r : Request)
  /-- CLKS (R38). Writes or reads S and the phase; a write restarts lock acquisition. -/
  | clks (r : Request)
  /-- STRT (R41). Checks the part and starts a run into PRIMING or SUSPENDED, copying L, N and S. -/
  | strt (r : Request)
  /-- STOP (R47). Moves PRIMING, RUNNING or SUSPENDED into DRAINING. -/
  | stop (r : Request)
  /-- RSET (R49). Executes the soft reset: STANDBY, queues emptied, activity counters cleared, configuration kept. -/
  | rset (r : Request)
  /-- RULE (R57). Writes or reads the trigger-rule settings, emptying the history on a write. -/
  | rule (r : Request)
  /-- BUSY (R72). Writes or reads the throttle thresholds and reconsiders the throttle. -/
  | busy (r : Request)
  /-- TRKS (R76). Writes tracking settings for the masked channels, or reads one channel's settings. -/
  | trks (r : Request)
  /-- PEDL (R77). Loads pedestal estimates, clamping with PED_RANGE, or reads all 32 of them. -/
  | pedl (r : Request)
  /-- TRML (R84). Starts a long trim of the masked channel-gains. -/
  | trml (r : Request)
  /-- TRMR (R91). Reads the trim results. -/
  | trmr (r : Request)
  /-- TREN (R92). Enters manual trim mode for one channel-gain. -/
  | tren (r : Request)
  /-- TRST (R94). Writes the selected DAC in manual trim mode and starts a 64-sample settle. -/
  | trst (r : Request)
  /-- TRMS (R95). Starts a baseline measurement of the selected channel-gain, or is refused if the clock is not LOCKED. -/
  | trms (r : Request)
  /-- TREX (R97). Leaves manual trim mode, loading P from a valid last mean. -/
  | trex (r : Request)
  /-- FILT (R99). Writes or reads one filter set. -/
  | filt (r : Request)
  /-- LCLR (R130). Empties the staged list. -/
  | lclr (r : Request)
  /-- LAPP (R130). Appends an entry to the staged list. -/
  | lapp (r : Request)
  /-- LINS (R131). Inserts an entry into the staged list at an index. -/
  | lins (r : Request)
  /-- LREM (R132). Removes the staged entry at an index. -/
  | lrem (r : Request)
  /-- LREP (R132). Replaces the staged entry at an index. -/
  | lrep (r : Request)
  /-- LRDS (R133). Reads entries of the staged or the active list. -/
  | lrds (r : Request)
  /-- LCOM (R134). Commits the staged list at once in STANDBY, or sets the commit pending otherwise. -/
  | lcom (r : Request)
  /-- SRCI (R150). Writes or reads the source id. -/
  | srci (r : Request)
  /-- STLM (R160). Writes or reads the stall limit. -/
  | stlm (r : Request)
  /-- INJS (R164). Writes or reads the train settings and the pending list. -/
  | injs (r : Request)
  /-- INJA (R165). Arms the injector. -/
  | inja (r : Request)
  /-- INJD (R165). Disarms the injector, abandoning any train in progress. -/
  | injd (r : Request)
  /-- INJF (R166). Requests a pulse train from the crate controller. -/
  | injf (r : Request)
  /-- INTS (R175). Starts a slow-integrator scan, or reads the scan settings. -/
  | ints (r : Request)
  /-- INTL (R178). Writes or reads the integrator limit. -/
  | intl (r : Request)
  /-- INTR (R179). Reads integrator readings and marks NEW readings READ. -/
  | intr (r : Request)
  /-- INTX (R180). Stops a scan in progress. -/
  | intx (r : Request)
  /-- CMAP (R185). Maps a condition to a class or reads the map, acting on the class summary at once. -/
  | cmap (r : Request)
  /-- CCLR (R186). Clears the named conditions and recomputes the class summary. -/
  | cclr (r : Request)
  /-- CNTR (R190). Reads the activity counters and high-water marks, optionally clearing them. -/
  | cntr (r : Request)
  /-- COND (R188). Reads condition records. -/
  | cond (r : Request)
  /-- STAT (R197). Reads the part's status summary. -/
  | stat (r : Request)
  /-- IDNT (R198). Reads the family code, revision and capacities. -/
  | idnt (r : Request)
  deriving DecidableEq, Repr

end Sys2Proof
end

