-- ==== Sys2Proof/Decode.lean ====
section
/-!
DEFINITION. Decoding. No row of spec/opcode_table.json gives its command any bits, so `decodeTableWord` reads none; what the
part does decode is the four-character name of a request frame (R191, R195), which picks the command a waiting frame asks
for.
-/

namespace Sys2Proof

/-- The commands of the control link by their names, four ASCII characters, lower case (R191, section 11.4). -/
def commandNames : List (BitVec 32 × (Request → Instr)) :=
  [(0x6368616E#32, Instr.chan),
   (0x70697065#32, Instr.pipe),
   (0x66727A65#32, Instr.frze),
   (0x74686177#32, Instr.thaw),
   (0x7065656B#32, Instr.peek),
   (0x7475726E#32, Instr.turn),
   (0x636C6B73#32, Instr.clks),
   (0x73747274#32, Instr.strt),
   (0x73746F70#32, Instr.stop),
   (0x72736574#32, Instr.rset),
   (0x72756C65#32, Instr.rule),
   (0x62757379#32, Instr.busy),
   (0x74726B73#32, Instr.trks),
   (0x7065646C#32, Instr.pedl),
   (0x74726D6C#32, Instr.trml),
   (0x74726D72#32, Instr.trmr),
   (0x7472656E#32, Instr.tren),
   (0x74727374#32, Instr.trst),
   (0x74726D73#32, Instr.trms),
   (0x74726578#32, Instr.trex),
   (0x66696C74#32, Instr.filt),
   (0x6C636C72#32, Instr.lclr),
   (0x6C617070#32, Instr.lapp),
   (0x6C696E73#32, Instr.lins),
   (0x6C72656D#32, Instr.lrem),
   (0x6C726570#32, Instr.lrep),
   (0x6C726473#32, Instr.lrds),
   (0x6C636F6D#32, Instr.lcom),
   (0x73726369#32, Instr.srci),
   (0x73746C6D#32, Instr.stlm),
   (0x696E6A73#32, Instr.injs),
   (0x696E6A61#32, Instr.inja),
   (0x696E6A64#32, Instr.injd),
   (0x696E6A66#32, Instr.injf),
   (0x696E7473#32, Instr.ints),
   (0x696E746C#32, Instr.intl),
   (0x696E7472#32, Instr.intr),
   (0x696E7478#32, Instr.intx),
   (0x636D6170#32, Instr.cmap),
   (0x63636C72#32, Instr.cclr),
   (0x636E7472#32, Instr.cntr),
   (0x636F6E64#32, Instr.cond),
   (0x73746174#32, Instr.stat),
   (0x69646E74#32, Instr.idnt)]

/-- A name is one of the part's commands; names are case-sensitive (R195). -/
def isCommandName (name : BitVec 32) : Bool := (commandNames.map Prod.fst).contains name

/-- The command a request frame asks for; a name that is none of the part's commands makes an unknown command (R195). -/
def commandOf (f : Frame) : Instr :=
  match commandNames.find? fun e => decide (e.1 = f.name) with
  | some e => e.2 { tag := f.tag, payload := f.payload }
  | none => .unknownCommand f.name { tag := f.tag, payload := f.payload }

/-- The command a word spells by the table's bits: no row gives bits, so none does. -/
def decodeTableWord (_nbits _w : Nat) : Option Instr := none

end Sys2Proof
end

