-- ==== Sys2Proof/Machine/State.lean ====
section
/-!
DEFINITION. The state of the P1624 as plain data, one structure per block of spec/00_scope.md, the reasons a step can
stop (there are none), the state after power-on, and one named update per block.
-/

namespace Sys2Proof.Machine

/-! ## Acquisition Controller -/

/-- The acquisition state (R40). -/
inductive AcqState where
  | standby
  | priming
  | running
  | suspended
  | draining
  deriving DecidableEq, Repr

/-- The Acquisition Controller: its state and the start copy of L, N and S (R40). -/
structure Acquisition where
  state : AcqState
  startL : Nat
  startN : Nat
  startS : Nat
  deriving DecidableEq, Repr

/-! ## Front End -/

/-- One channel record (R3). -/
structure ChanRec where
  enable : Bool
  hgThreshold : Nat
  lgThreshold : Nat
  gainRatio : Nat
  hgSet : Fin 8
  lgSet : Fin 8
  deriving DecidableEq, Repr

/-- The Front End: sixteen channel records (R3) and the 32 offset trim DACs (R5). -/
structure FrontEnd where
  recs : Vector ChanRec 16
  dacs : Vector (PerGain Nat) 16
  deriving DecidableEq, Repr

/-! ## Sample Pipeline -/

/-- One sample slot (R6). -/
structure Slot where
  hg : Code
  lg : Code
  clipH : Bool
  clipL : Bool
  inj : Bool
  trimStep : Bool
  disabled : Bool
  deriving DecidableEq, Repr

/-- One channel's ring of 512 slots: the slots that differ from a cleared one, by position, positions rising. A position
not listed holds a cleared slot, as power-on leaves it (R6). -/
abbrev Ring := List (Nat × Slot)

/-- What the Sample Pipeline holds for one channel (R6). -/
structure ChanPipe where
  ring : Ring
  frozen : Bool
  refill : Nat
  newest : Fin 512
  trimStepCount : Nat
  injCount : Nat
  deriving DecidableEq, Repr

/-- The Sample Pipeline (R6), with the latency L and the window N that pipe sets (R15). -/
structure Pipeline where
  w : Fin 512
  fill : Nat
  latency : Nat
  window : Nat
  chans : Vector ChanPipe 16
  deriving DecidableEq, Repr

/-! ## Timing Receiver and Clock Synthesiser -/

/-- The link state (R23). -/
inductive LinkState where
  | noSignal
  | seeking
  | locked
  deriving DecidableEq, Repr

/-- The Timing Receiver (R23 to R32). `lastTaken` is the bit position at which the last frame was taken (R24), and `quiet` the
quiet indication of the crossing whose samples are arriving (R30). -/
structure Timing where
  link : LinkState
  candidate : Fin 8
  lastTaken : Fin 8
  runCount : Nat
  failCount : Nat
  serial : Serial
  counter : Nat
  aligned : Bool
  turnLength : Nat
  quietFrom : Nat
  quietTo : Nat
  quiet : Bool
  event : EventNum
  deriving DecidableEq, Repr

/-- The lock state of the Clock Synthesiser (R34). -/
inductive ClockState where
  | unlocked
  | acquiring
  | locked
  deriving DecidableEq, Repr

/-- The Clock Synthesiser (R34). -/
structure Clock where
  s : Nat
  phase : Nat
  state : ClockState
  lockCount : Nat
  deriving DecidableEq, Repr

/-! ## Accept Queue -/

/-- Why a record has no snapshot slot (R60). -/
inductive NosnapReason where
  | unprimed
  | suspended
  | rule
  | noslot
  deriving DecidableEq, Repr

/-- A record has either a snapshot slot or a NOSNAP reason, never both (R61). -/
inductive RecordKind where
  | full (slot : Fin 16)
  | nosnap (reason : NosnapReason)
  deriving DecidableEq, Repr

/-- A record of the Accept Queue (R61). CAL is set exactly when a pulse index is present. -/
structure Record where
  event : EventNum
  crossing : Nat
  refSerial : Serial
  unaligned : Bool
  rule : Bool
  gap : Nat
  kind : RecordKind
  pulse : Option Nat
  deriving DecidableEq, Repr

/-- What a snapshot slot holds for one channel (R64). -/
structure ChanSnap where
  window : List Slot
  held : Bool
  stale : Bool
  disabled : Bool
  pedestal : PerGain Nat
  deriving DecidableEq, Repr

/-- The contents of a held snapshot slot: every channel's capture (R64). -/
abbrev Snapshot := Vector ChanSnap 16

/-- The Accept Queue (R54). A snapshot slot that is free is `none`. -/
structure AcceptQueue where
  records : List Record
  snaps : Vector (Option Snapshot) 16
  gap : Nat
  ruleK : Nat
  ruleW : Nat
  degrade : Bool
  history : List Serial
  throttle : Bool
  hi : Nat
  lo : Nat
  recordMark : Nat
  slotMark : Nat
  deriving DecidableEq, Repr

/-! ## Pedestal Tracker and Trim Engine -/

/-- What the Pedestal Tracker holds for one channel-gain (R75). -/
structure GainTrack where
  p : Nat
  sigma : Nat
  count : Nat
  sum : Nat
  blank : Bool
  deriving DecidableEq, Repr

/-- What the Pedestal Tracker holds for one channel (R75). -/
structure ChanTrack where
  tracking : Bool
  autoTrim : Bool
  target : PerGain Nat
  hysteresis : Nat
  blockExp : Nat
  updateExp : Nat
  gains : PerGain GainTrack
  deriving DecidableEq, Repr

/-- The Pedestal Tracker (R75). -/
structure Tracker where
  chans : Vector ChanTrack 16
  deriving DecidableEq, Repr

/-- The result status of a long trim (R83). -/
inductive TrimStatus where
  | never
  | ok
  | limit
  | slopeBad
  | aborted
  deriving DecidableEq, Repr

/-- What the Trim Engine holds for one channel-gain at all times (R83). -/
structure TrimInfo where
  first : Bool
  status : TrimStatus
  deriving DecidableEq, Repr

/-- One channel-gain taking part in a long trim (R83 to R88): whether it searches the whole range, the DAC value its search
has reached (its base and the bits kept so far), the copies of its target and h, the mean of its first finishing round,
and the sum of the round in progress. -/
structure Search where
  whole : Bool
  value : Nat
  target : Nat
  hysteresis : Nat
  meanV : Nat
  sum : Nat
  deriving DecidableEq, Repr

/-- A long trim in progress: the round, counted from 0, the sample arrivals of it so far, and each channel-gain still in
progress (R85). -/
structure LongTrim where
  round : Nat
  arrivals : Nat
  searches : Vector (PerGain (Option Search)) 16
  deriving DecidableEq, Repr

/-- A trms measurement in progress: the samples summed so far and their sum (R95). -/
structure Measurement where
  count : Nat
  sum : Nat
  deriving DecidableEq, Repr

/-- Manual trim mode (R83): the selected channel-gain, the settle count, the last mean and its valid flag, and the
measurement in progress, if any. -/
structure ManualTrim where
  chan : Chan
  gain : Gain
  settle : Nat
  lastMean : Nat
  valid : Bool
  measuring : Option Measurement
  deriving DecidableEq, Repr

/-- The engine state (R83). -/
inductive TrimEngine where
  | idle
  | long (t : LongTrim)
  | manual (m : ManualTrim)
  deriving DecidableEq, Repr

/-- The Trim Engine (R83). -/
structure Trim where
  engine : TrimEngine
  gains : Vector (PerGain TrimInfo) 16
  deriving DecidableEq, Repr

/-! ## Filter Set Table and Readout List -/

/-- A filter set: its two coefficient lists, of equal length (R98). The set's length is theirs. -/
structure FilterSet where
  a : List (BitVec 16)
  b : List (BitVec 16)
  deriving DecidableEq, Repr

/-- The Filter Set Table (R98). -/
structure FilterTable where
  sets : Vector FilterSet 8
  deriving DecidableEq, Repr

/-- The mode of a list entry (R127). -/
inductive Mode where
  | flags
  | recon
  | reconRaw
  | rawSel
  | rawBoth
  deriving DecidableEq, Repr

/-- The gain policy of a list entry (R127). -/
inductive Policy where
  | auto
  | hg
  | lg
  deriving DecidableEq, Repr

/-- The suppression mode of a list entry (R127). -/
inductive Suppression where
  | keep
  | above
  | abs
  deriving DecidableEq, Repr

/-- A list entry (R127). -/
structure Entry where
  channel : Chan
  mode : Mode
  policy : Policy
  suppression : Suppression
  threshold : Nat
  keepOnFlag : Bool
  peakLo : Nat
  peakHi : Nat
  timeThreshold : Nat
  deriving DecidableEq, Repr

/-- The Readout List (R126). -/
structure ReadoutList where
  staged : List Entry
  active : List Entry
  pending : Bool
  generation : BitVec 8
  swap : Bool
  deriving DecidableEq, Repr

/-! ## Fragment Builder and Reconstruction Unit -/

/-- What the Fragment Builder holds of a build (R140): the fields copied from the record, the generation and LISTNEW mark,
the assembly, the two counts, the list position and the union of the emitted entries' flags. -/
structure Build where
  record : Record
  generation : BitVec 8
  listNew : Bool
  words : List LinkWord
  emitted : Nat
  suppressed : Nat
  position : Nat
  flags : BitVec 16
  deriving DecidableEq, Repr

/-- The builder state (R140). -/
inductive BuilderState where
  | idle
  | building (b : Build)
  | ready (b : Build)
  deriving DecidableEq, Repr

/-- The entry in flight in the Reconstruction Unit, with the head record's event number and snapshot slot (R100). -/
structure InFlight where
  entry : Entry
  event : EventNum
  slot : Fin 16
  deriving DecidableEq, Repr

/-- The Fragment Builder and the Reconstruction Unit it feeds (R140, R100). -/
structure Builder where
  state : BuilderState
  inFlight : Option InFlight
  deriving DecidableEq, Repr

/-! ## Readout Transmitter -/

/-- A throttle frame (R71). -/
inductive ThrottleFrame where
  | busyOn
  | busyOff
  deriving DecidableEq, Repr

/-- The output buffer and the Readout Transmitter (R151 to R160). `begun` is the number of data words of the block begun,
`sent` the words that have left on the outbound link, oldest first (the model's own record, assumption log 9). -/
structure Transmitter where
  buffer : List LinkWord
  begun : Option Nat
  credits : Nat
  waitingFrame : Option ThrottleFrame
  stallTimer : Nat
  stallMark : Bool
  stallLimit : Nat
  sourceId : Nat
  sent : List LinkWord
  deriving DecidableEq, Repr

/-! ## Charge Injector -/

/-- The train mode (R163). -/
inductive TrainMode where
  | oneShot
  | repeating
  deriving DecidableEq, Repr

/-- The injector state (R163); while a train is in progress, the serial of the next firing, and the number of its pulses
fired so far. -/
inductive InjState where
  | disarmed
  | armed
  | delaying (next : Serial)
  | firing (next : Serial) (fired : Nat)
  deriving DecidableEq, Repr

/-- A pulse record of the pending pulse list (R163). -/
structure Pulse where
  serial : Serial
  train : BitVec 8
  index : Nat
  deriving DecidableEq, Repr

/-- One drive of the board's injection network (R168). -/
structure Drive where
  serial : Serial
  mask : ChanMask
  amplitude : Nat
  deriving DecidableEq, Repr

/-- The Charge Injector (R163). `driven` is what it has driven into the injection network, oldest first (the model's own
record, assumption log 9). -/
structure Injector where
  state : InjState
  mask : ChanMask
  amplitude : Nat
  delay : Nat
  count : Nat
  spacing : Nat
  mode : TrainMode
  train : BitVec 8
  pending : List Pulse
  driven : List Drive
  deriving DecidableEq, Repr

/-! ## Slow Integrator Monitor -/

/-- The scan mode (R174). -/
inductive ScanMode where
  | single
  | continuous
  deriving DecidableEq, Repr

/-- The scan state (R174); while a scan is in progress, the current channel and the settle or gate count. -/
inductive ScanState where
  | idle
  | settle (chan : Chan) (count : Nat)
  | gate (chan : Chan) (count : Nat)
  deriving DecidableEq, Repr

/-- The status of a reading (R174). -/
inductive ReadingStatus where
  | empty
  | new
  | read
  deriving DecidableEq, Repr

/-- One reading of the reading table (R174). -/
structure Reading where
  status : ReadingStatus
  count : Nat
  gate : Nat
  pass : BitVec 8
  ovf : Bool
  overwritten : Bool
  deriving DecidableEq, Repr

/-- The Slow Integrator Monitor (R174). -/
structure Integrator where
  startChan : Chan
  endChan : Chan
  mode : ScanMode
  gateLength : Nat
  limit : Nat
  scan : ScanState
  counter : Nat
  pass : BitVec 8
  readings : Vector Reading 16
  deriving DecidableEq, Repr

/-! ## Condition Table -/

/-- The 25 conditions, in the order of their numbers (section 10.2). -/
inductive Cond where
  | tlLoss
  | tlCheck
  | turnSlip
  | clkUnlock
  | aqOverflow
  | noSlot
  | ruleViol
  | lgOvf
  | trimLimit
  | trimSlope
  | trimAbort
  | pedRange
  | rlStall
  | rlCreditErr
  | rlCreditOvf
  | ctlCrc
  | ctlOverrun
  | ctlTimeout
  | calMissed
  | calOverlap
  | calListFull
  | intOvf
  | intHigh
  | intOverwrite
  | listSwapStop
  deriving DecidableEq, Repr

/-- A class, or NONE (R181). -/
inductive CondClass where
  | class0
  | class1
  | class2
  | class3
  | none
  deriving DecidableEq, Repr

/-- A condition record (R181). -/
structure CondRec where
  latch : Bool
  count : Nat
  cls : CondClass
  first : Option EventNum
  deriving DecidableEq, Repr

/-- The ten activity counters (R189). -/
structure Counters where
  accSeen : BitVec 32
  recMade : BitVec 32
  accNoRec : BitVec 32
  noSnaps : BitVec 32
  ruleV : BitVec 32
  frags : BitVec 32
  words : BitVec 32
  blocks : BitVec 32
  suppressed : BitVec 32
  missed : BitVec 32
  deriving DecidableEq, Repr

/-- The Condition Table (R181). The class summary's marks follow from the latches and classes (R183) and are computed
from them. -/
structure CondTable where
  recs : Vector CondRec 25
  counters : Counters
  deriving DecidableEq, Repr

/-! ## Control Port -/

/-- What holds the Control Port (R194): nothing; a trms whose reply waits for its measurement (R95); an rset whose reply waits, and
whether it waits for a BUSY-OFF frame (R49); a cclr that has been executed and whose reply is not formed yet, and how many more
events of the same moment come before it is (R187, assumption log 31); or a reply whose last byte has not been sent, and how many
more events come while it is being sent (assumption log 3). -/
inductive Execution where
  | none
  | trms (tag : Byte)
  | rset (tag : Byte) (awaitsBusyOff : Bool)
  | cclr (tag : Byte) (events : Nat)
  | sending (events : Nat)
  deriving DecidableEq, Repr

/-- The Control Port: the receiver (`none` is HUNT; in FRAME, the bytes taken after the start byte, R192), the receive buffer
(R193), the request in execution or the reply being sent (R194), and the reply frames formed and sent, oldest first (the
model's own record, assumption log 9). -/
structure Control where
  receiver : Option (List Byte)
  buffer : List Frame
  executing : Execution
  sent : List (List Byte)
  deriving DecidableEq, Repr

/-! ## The whole part -/

/-- The state of the P1624. `freeIndex` is the model's own: it numbers the uses of the free values of Config, so that each
use is a fresh one. `pending` is the queue of commands that wait, first in, first out. -/
structure State where
  acq : Acquisition
  front : FrontEnd
  pipe : Pipeline
  timing : Timing
  clk : Clock
  aq : AcceptQueue
  ped : Tracker
  trim : Trim
  filt : FilterTable
  list : ReadoutList
  builder : Builder
  tx : Transmitter
  inj : Injector
  integ : Integrator
  cond : CondTable
  ctl : Control
  freeIndex : Nat
  pending : List Instr
  deriving DecidableEq, Repr

/-- Why a step ends in a fault: never. The manual gives every command an effect or a refusal by reply in every state, so
the type has no constructor. -/
inductive Fault where
  deriving DecidableEq, Repr

/-- Why a step is refused. -/
inductive Refusal where
  /-- Raised by `exec` alone, for a command that has no meaning yet (safe: the machine stops). No arm raises it. -/
  | notModelled (mnemonic : String)
  deriving DecidableEq, Repr

/-! ## The state after power-on -/

/-- A cleared slot (R6). -/
def Slot.cleared : Slot :=
  { hg := 0, lg := 0, clipH := false, clipL := false, inj := false, trimStep := false, disabled := false }

/-- The default channel record (R3). -/
def ChanRec.default : ChanRec :=
  { enable := true, hgThreshold := 4000, lgThreshold := 4000, gainRatio := 8192, hgSet := 0, lgSet := 1 }

/-- One channel of the Sample Pipeline after power-on (R6). -/
def ChanPipe.default : ChanPipe :=
  { ring := [], frozen := false, refill := 0, newest := 511, trimStepCount := 0, injCount := 0 }

/-- One channel-gain of the tracker after power-on (R75). -/
def GainTrack.default : GainTrack := { p := 3200, sigma := 32, count := 0, sum := 0, blank := false }

/-- One channel of the tracker after power-on (R75). -/
def ChanTrack.default : ChanTrack :=
  { tracking := true, autoTrim := false, target := ⟨200, 200⟩, hysteresis := 8, blockExp := 6, updateExp := 3,
    gains := ⟨GainTrack.default, GainTrack.default⟩ }

/-- One channel-gain of the Trim Engine after power-on (R83). -/
def TrimInfo.default : TrimInfo := { first := true, status := .never }

/-- A reading after power-on (R174). -/
def Reading.default : Reading :=
  { status := .empty, count := 0, gate := 0, pass := 0, ovf := false, overwritten := false }

/-- The classes of the conditions at power-on, condition 0 first (section 10.2). -/
def Cond.defaultClasses : Vector CondClass 25 :=
  #v[.class2, .class0, .class0, .class2, .class2, .class1, .class1, .class1, .class1, .class1, .class2, .class1,
     .class2, .class0, .class0, .class0, .class0, .class0, .class1, .class0, .class0, .class1, .class0, .class1,
     .class0]

/-- All ten activity counters at 0 (R189). -/
def Counters.zero : Counters :=
  { accSeen := 0, recMade := 0, accNoRec := 0, noSnaps := 0, ruleV := 0, frags := 0, words := 0, blocks := 0,
    suppressed := 0, missed := 0 }

/-- The machine right after power-on, every field at the value the manual states (R3, R5, R6, R15, R23, R27 to R34, R40,
R54, R75, R83, R98, R126, R140, R151, R157 to R160, R163, R174, R181, R192, R193), the queue empty. -/
def State.reset : State where
  acq := { state := .standby, startL := 128, startN := 7, startS := 1 }
  front := { recs := Vector.replicate 16 ChanRec.default, dacs := Vector.replicate 16 ⟨128, 128⟩ }
  pipe := { w := 0, fill := 0, latency := 128, window := 7, chans := Vector.replicate 16 ChanPipe.default }
  timing :=
    { link := .noSignal, candidate := 0, lastTaken := 0, runCount := 0, failCount := 0, serial := 0, counter := 0,
      aligned := false, turnLength := 3000, quietFrom := 2880, quietTo := 2999, quiet := false, event := 0 }
  clk := { s := 1, phase := 0, state := .unlocked, lockCount := 0 }
  aq :=
    { records := [], snaps := Vector.replicate 16 none, gap := 0, ruleK := 0, ruleW := 100, degrade := false,
      history := [], throttle := false, hi := 12, lo := 8, recordMark := 0, slotMark := 0 }
  ped := { chans := Vector.replicate 16 ChanTrack.default }
  trim := { engine := .idle, gains := Vector.replicate 16 ⟨TrimInfo.default, TrimInfo.default⟩ }
  filt := { sets := Vector.replicate 8 ⟨[], []⟩ }
  list := { staged := [], active := [], pending := false, generation := 0, swap := false }
  builder := { state := .idle, inFlight := none }
  tx :=
    { buffer := [], begun := none, credits := 0, waitingFrame := none, stallTimer := 0, stallMark := false,
      stallLimit := 4096, sourceId := 0, sent := [] }
  inj :=
    { state := .disarmed, mask := 0, amplitude := 0, delay := 0, count := 1, spacing := 1, mode := .oneShot, train := 0,
      pending := [], driven := [] }
  integ :=
    { startChan := 0, endChan := 15, mode := .single, gateLength := 4096, limit := 16777215, scan := .idle,
      counter := 0, pass := 0, readings := Vector.replicate 16 Reading.default }
  cond :=
    { recs := Vector.ofFn fun i =>
        { latch := false, count := 0, cls := Cond.defaultClasses[i], first := none },
      counters := Counters.zero }
  ctl := { receiver := none, buffer := [], executing := .none, sent := [] }
  freeIndex := 0
  pending := []

/-! ## One update per block -/

/-- Change the Acquisition Controller, and nothing else. -/
def State.mapAcq (s : State) (f : Acquisition → Acquisition) : State := { s with acq := f s.acq }

/-- Change the Front End, and nothing else. -/
def State.mapFront (s : State) (f : FrontEnd → FrontEnd) : State := { s with front := f s.front }

/-- Change the Sample Pipeline, and nothing else. -/
def State.mapPipe (s : State) (f : Pipeline → Pipeline) : State := { s with pipe := f s.pipe }

/-- Change the Timing Receiver, and nothing else. -/
def State.mapTiming (s : State) (f : Timing → Timing) : State := { s with timing := f s.timing }

/-- Change the Clock Synthesiser, and nothing else. -/
def State.mapClk (s : State) (f : Clock → Clock) : State := { s with clk := f s.clk }

/-- Change the Accept Queue, and nothing else. -/
def State.mapAq (s : State) (f : AcceptQueue → AcceptQueue) : State := { s with aq := f s.aq }

/-- Change the Pedestal Tracker, and nothing else. -/
def State.mapPed (s : State) (f : Tracker → Tracker) : State := { s with ped := f s.ped }

/-- Change the Trim Engine, and nothing else. -/
def State.mapTrim (s : State) (f : Trim → Trim) : State := { s with trim := f s.trim }

/-- Change the Filter Set Table, and nothing else. -/
def State.mapFilt (s : State) (f : FilterTable → FilterTable) : State := { s with filt := f s.filt }

/-- Change the Readout List, and nothing else. -/
def State.mapList (s : State) (f : ReadoutList → ReadoutList) : State := { s with list := f s.list }

/-- Change the Fragment Builder and Reconstruction Unit, and nothing else. -/
def State.mapBuilder (s : State) (f : Builder → Builder) : State := { s with builder := f s.builder }

/-- Change the Readout Transmitter, and nothing else. -/
def State.mapTx (s : State) (f : Transmitter → Transmitter) : State := { s with tx := f s.tx }

/-- Change the Charge Injector, and nothing else. -/
def State.mapInj (s : State) (f : Injector → Injector) : State := { s with inj := f s.inj }

/-- Change the Slow Integrator Monitor, and nothing else. -/
def State.mapInteg (s : State) (f : Integrator → Integrator) : State := { s with integ := f s.integ }

/-- Change the Condition Table, and nothing else. -/
def State.mapCond (s : State) (f : CondTable → CondTable) : State := { s with cond := f s.cond }

/-- Change the Control Port, and nothing else. -/
def State.mapCtl (s : State) (f : Control → Control) : State := { s with ctl := f s.ctl }

/-- Change the index of the free values, and nothing else. -/
def State.mapFreeIndex (s : State) (f : Nat → Nat) : State := { s with freeIndex := f s.freeIndex }

/-- Change the queue of commands, and nothing else. -/
def State.mapPending (s : State) (f : List Instr → List Instr) : State := { s with pending := f s.pending }

end Sys2Proof.Machine
end

