-- ==== Sys2Proof/Machine/Flags.lean ====
section
/-!
DEFINITION. The named codes and flags of the part: the code of every named value in a payload or a word (R196, R199 to R203),
the condition numbers, the class summary (R183), the record flags of a fragment header (R148) and the flags of an entry's
head word (R119).
-/

namespace Sys2Proof.Machine

/-! ## Codes of named values (R196: 0, 1, 2, … in the order of the rule) -/

/-- A flag or a valid mark: 0 for clear, 1 for set. -/
def flagCode (b : Bool) : Nat := if b then 1 else 0

/-- HG 0, LG 1. -/
def gainCode : Gain → Nat
  | .hg => 0
  | .lg => 1

/-- STANDBY, PRIMING, RUNNING, SUSPENDED, DRAINING (R40). -/
def AcqState.code : AcqState → Nat
  | .standby => 0
  | .priming => 1
  | .running => 2
  | .suspended => 3
  | .draining => 4

/-- UNLOCKED, ACQUIRING, LOCKED (R34). -/
def ClockState.code : ClockState → Nat
  | .unlocked => 0
  | .acquiring => 1
  | .locked => 2

/-- NO_SIGNAL, SEEKING, LOCKED (R23). -/
def LinkState.code : LinkState → Nat
  | .noSignal => 0
  | .seeking => 1
  | .locked => 2

/-- IDLE, LONG, MANUAL (R83). -/
def TrimEngine.code : TrimEngine → Nat
  | .idle => 0
  | .long _ => 1
  | .manual _ => 2

/-- NEVER, OK, LIMIT, SLOPEBAD, ABORTED (R83). -/
def TrimStatus.code : TrimStatus → Nat
  | .never => 0
  | .ok => 1
  | .limit => 2
  | .slopeBad => 3
  | .aborted => 4

/-- DISARMED, ARMED, DELAYING, FIRING (R163). -/
def InjState.code : InjState → Nat
  | .disarmed => 0
  | .armed => 1
  | .delaying _ => 2
  | .firing _ _ => 3

/-- ONESHOT, REPEAT (R163). -/
def TrainMode.code : TrainMode → Nat
  | .oneShot => 0
  | .repeating => 1

/-- SINGLE, CONTINUOUS (R174). -/
def ScanMode.code : ScanMode → Nat
  | .single => 0
  | .continuous => 1

/-- IDLE, SETTLE, GATE (R174). -/
def ScanState.code : ScanState → Nat
  | .idle => 0
  | .settle _ _ => 1
  | .gate _ _ => 2

/-- EMPTY, NEW, READ (R174). -/
def ReadingStatus.code : ReadingStatus → Nat
  | .empty => 0
  | .new => 1
  | .read => 2

/-- A class 0..3 as itself and NONE as 4 (R196). -/
def CondClass.code : CondClass → Nat
  | .class0 => 0
  | .class1 => 1
  | .class2 => 2
  | .class3 => 3
  | .none => 4

/-- FLAGS, RECON, RECON_RAW, RAW_SEL, RAW_BOTH (R200). -/
def Mode.code : Mode → Nat
  | .flags => 0
  | .recon => 1
  | .reconRaw => 2
  | .rawSel => 3
  | .rawBoth => 4

/-- AUTO, HG, LG (R200). -/
def Policy.code : Policy → Nat
  | .auto => 0
  | .hg => 1
  | .lg => 2

/-- KEEP, ABOVE, ABS (R200). -/
def Suppression.code : Suppression → Nat
  | .keep => 0
  | .above => 1
  | .abs => 2

/-- NONE 0, UNPRIMED 1, SUSPENDED 2, RULE 3, NOSLOT 4 (R203). -/
def RecordKind.reasonCode : RecordKind → Nat
  | .full _ => 0
  | .nosnap .unprimed => 1
  | .nosnap .suspended => 2
  | .nosnap .rule => 3
  | .nosnap .noslot => 4

/-- The status codes of a reply (R195). -/
inductive Status where
  | ok
  | clamped
  | unknown
  | badLen
  | badArg
  | badState
  | busy
  | full
  deriving DecidableEq, Repr

/-- The code of a status (R195). -/
def Status.code : Status → Nat
  | .ok => 0
  | .clamped => 1
  | .unknown => 2
  | .badLen => 3
  | .badArg => 4
  | .badState => 5
  | .busy => 6
  | .full => 7

/-- The number of a condition (section 10.2). -/
def Cond.num : Cond → Fin 25
  | .tlLoss => 0
  | .tlCheck => 1
  | .turnSlip => 2
  | .clkUnlock => 3
  | .aqOverflow => 4
  | .noSlot => 5
  | .ruleViol => 6
  | .lgOvf => 7
  | .trimLimit => 8
  | .trimSlope => 9
  | .trimAbort => 10
  | .pedRange => 11
  | .rlStall => 12
  | .rlCreditErr => 13
  | .rlCreditOvf => 14
  | .ctlCrc => 15
  | .ctlOverrun => 16
  | .ctlTimeout => 17
  | .calMissed => 18
  | .calOverlap => 19
  | .calListFull => 20
  | .intOvf => 21
  | .intHigh => 22
  | .intOverwrite => 23
  | .listSwapStop => 24

/-! ## The class summary -/

/-- Class k is raised while at least one condition of class k has its latch set (R183). NONE raises no class; `raised`
is asked of the four classes only. -/
def CondTable.raised (t : CondTable) (k : CondClass) : Bool :=
  (List.finRange 25).any fun i => t.recs[i].latch && decide (t.recs[i].cls = k)

/-- The class summary as four bits, bit k for class k (R199, R203). -/
def CondTable.summary (t : CondTable) : BitVec 4 :=
  BitVec.ofBool (t.raised .class3) ++ BitVec.ofBool (t.raised .class2) ++ BitVec.ofBool (t.raised .class1)
    ++ BitVec.ofBool (t.raised .class0)

/-- The mask of latched conditions, bit n for condition n (R186, R188). -/
def CondTable.latched (t : CondTable) : Nat :=
  (List.finRange 25).foldl (fun m i => if t.recs[i].latch then m + 2 ^ i.val else m) 0

/-! ## Entry flags -/

/-- The fourteen named flags of an entry (R119); `gainLg` is the gain-used flag. -/
structure EntryFlags where
  sat : Bool
  ovf : Bool
  clamp : Bool
  noTime : Bool
  tClamp : Bool
  peakOut : Bool
  held : Bool
  stale : Bool
  disabled : Bool
  trimStep : Bool
  inj : Bool
  kept : Bool
  forced : Bool
  gainLg : Bool
  deriving DecidableEq, Repr

/-- The flag positions of the head word, bits 15..0 (R203). -/
def EntryFlags.bits (f : EntryFlags) : BitVec 16 :=
  BitVec.ofBool f.sat ++ BitVec.ofBool f.ovf ++ BitVec.ofBool f.clamp ++ BitVec.ofBool f.noTime
    ++ BitVec.ofBool f.tClamp ++ BitVec.ofBool f.peakOut ++ BitVec.ofBool f.held ++ BitVec.ofBool f.stale
    ++ BitVec.ofBool f.disabled ++ BitVec.ofBool f.trimStep ++ BitVec.ofBool f.inj ++ BitVec.ofBool f.kept
    ++ BitVec.ofBool f.forced ++ BitVec.ofBool f.gainLg ++ 0#2

/-- CHFLAG reads SAT, OVF, CLAMP, TCLAMP, HELD and STALE of the emitted entries (R148). -/
def chFlag (u : BitVec 16) : Bool :=
  u.getLsbD 15 || u.getLsbD 14 || u.getLsbD 13 || u.getLsbD 11 || u.getLsbD 9 || u.getLsbD 8

/-- TRIMSTEP_ANY reads TRIMSTEP of the emitted entries (R148). -/
def trimStepAny (u : BitVec 16) : Bool := u.getLsbD 6

/-! ## Record flags -/

/-- The record has no snapshot slot (R148). -/
def RecordKind.isNosnap : RecordKind → Bool
  | .full _ => false
  | .nosnap _ => true

/-- The eight record flags of a fragment header, bits 31..24 of its second word (R148, R203). -/
def Build.recordFlags (b : Build) : BitVec 8 :=
  BitVec.ofBool b.record.unaligned ++ BitVec.ofBool b.record.rule ++ BitVec.ofBool b.record.pulse.isSome
    ++ BitVec.ofBool b.record.kind.isNosnap ++ BitVec.ofBool (decide (0 < b.record.gap)) ++ BitVec.ofBool b.listNew
    ++ BitVec.ofBool (chFlag b.flags) ++ BitVec.ofBool (trimStepAny b.flags)

/-! ## The timing-link frame -/

/-- A frame passes its check when its check field is the complement of its four command flags (R22, R201). -/
def frameGood (f : Byte) : Bool := decide (f.extractLsb' 0 4 = ~~~ f.extractLsb' 4 4)

/-- The ACCEPT flag (R201). -/
def frameAccept (f : Byte) : Bool := f.getLsbD 7
/-- The TURNMARK flag (R201). -/
def frameTurnmark (f : Byte) : Bool := f.getLsbD 6
/-- The EVCLEAR flag (R201). -/
def frameEvclear (f : Byte) : Bool := f.getLsbD 5
/-- The PULSEREQ flag (R201). -/
def framePulsereq (f : Byte) : Bool := f.getLsbD 4

end Sys2Proof.Machine
end

