-- ==== Sys2Proof/Machine/Ops.lean ====
section
/-!
DEFINITION. The operations the blocks share: rounding and clamping (R1), the ring store (R6), the link check (R191), the
throttle (R69 to R71), an occurrence at the Condition Table and what the Acquisition Controller does with class 3 (R182,
R184, R46), the reply frame (R191, R199) and the reception of a request frame (R193).
-/

namespace Sys2Proof.Machine

/-! ## Numbers -/

/-- Round by k: add 2^(k−1), then take the floor of the quotient by 2^k; round by 0 leaves x unchanged (R1). -/
def roundBy (k : Nat) (x : Int) : Int :=
  match k with
  | 0 => x
  | j + 1 => (x + 2 ^ j) / 2 ^ (j + 1)

/-- Clamp x to lo..hi (conventions of spec/00_scope.md). -/
def clampTo (lo hi x : Int) : Int := if x < lo then lo else if hi < x then hi else x

/-- Increase a count by one unless it stands at its top. -/
def bump (top n : Nat) : Nat := if n < top then n + 1 else n

/-- The number of crossings that hold n samples at s samples per crossing, rounded up. -/
def ceilDiv (n s : Nat) : Nat := (n + s - 1) / s

/-! ## Tables -/

/-- The table whose entry at i is `f i`. -/
def tab {n : Nat} {α : Type} (f : Fin n → α) : Vector α n := Vector.ofFn f

/-- The table with entry i replaced. -/
def put {n : Nat} {α : Type} (v : Vector α n) (i : Fin n) (x : α) : Vector α n := v.set i.val x i.isLt

/-- The channels in ascending order. -/
def allChans : List Chan := List.finRange 16

/-- A mask names channel c when its bit c is set (R196). -/
def named (m : ChanMask) (c : Chan) : Bool := m.getLsbD c.val

/-- The channels a mask names, in ascending order. -/
def namedChans (m : ChanMask) : List Chan := allChans.filter fun c => named m c

/-- The mask of the channels for which f holds. -/
def maskOf (f : Chan → Bool) : Nat := allChans.foldl (fun m c => if f c then m + 2 ^ c.val else m) 0

/-! ## Rings -/

/-- The slot at a position of a ring; a position not listed holds a cleared slot (R6). -/
def ringRead : Ring → Nat → Slot
  | [], _ => Slot.cleared
  | (q, x) :: t, p => if q = p then x else ringRead t p

/-- Write the slot at a position, keeping the listed positions rising and no cleared slot listed. -/
def ringWrite : Ring → Nat → Slot → Ring
  | [], p, x => if x = Slot.cleared then [] else [(p, x)]
  | (q, y) :: t, p, x =>
    if p < q then if x = Slot.cleared then (q, y) :: t else (p, x) :: (q, y) :: t
    else if p = q then if x = Slot.cleared then t else (p, x) :: t
    else (q, y) :: ringWrite t p x

/-- The canonical form of a ring: listed positions rise and lie below 512, and no cleared slot is listed. -/
def ringWf : Ring → Bool
  | [] => true
  | (p, x) :: t => decide (p < Config.ringSlots) && decide (x ≠ Slot.cleared) && (t.all fun e => decide (p < e.1))
      && ringWf t

/-- The window of an accept: n slots from the position l back from w on, oldest first (R14). -/
def ringWindow (r : Ring) (w : Fin 512) (l n : Nat) : List Slot :=
  (List.range n).map fun i => ringRead r ((w.val + 512 - l % 512 + i) % 512)

/-! ## Bytes and the link check -/

/-- A whole number in one byte (R196). -/
def u8 (n : Nat) : List Byte := [BitVec.ofNat 8 n]
/-- A whole number in two bytes, most significant byte first (R196). -/
def u16 (n : Nat) : List Byte := [BitVec.ofNat 8 (n / 256), BitVec.ofNat 8 n]
/-- A whole number in three bytes, most significant byte first (R196). -/
def u24 (n : Nat) : List Byte := [BitVec.ofNat 8 (n / 65536), BitVec.ofNat 8 (n / 256), BitVec.ofNat 8 n]
/-- A whole number in four bytes, most significant byte first (R196). -/
def u32 (n : Nat) : List Byte :=
  [BitVec.ofNat 8 (n / 16777216), BitVec.ofNat 8 (n / 65536), BitVec.ofNat 8 (n / 256), BitVec.ofNat 8 n]

/-- One bit through the CRC-16 register, polynomial x^16 + x^12 + x^5 + 1 (R191). -/
def crcBit (crc : BitVec 16) : BitVec 16 :=
  if crc.getLsbD 15 then (crc <<< 1) ^^^ 0x1021#16 else crc <<< 1

/-- One byte through the CRC-16 register, most significant bit first (R191). -/
def crcByte (crc : BitVec 16) (b : Byte) : BitVec 16 :=
  (List.range 8).foldl (fun c _ => crcBit c) (crc ^^^ (b ++ 0#8))

/-- The CRC-16 of a list of bytes, the register starting at 0xFFFF (R191). -/
def crc16 (bs : List Byte) : BitVec 16 := bs.foldl crcByte 0xFFFF#16

/-- A check in two bytes, high byte first (R191). -/
def crcBytes (bs : List Byte) : List Byte := u16 (crc16 bs).toNat

/-- The four bytes of a link word, most significant first (R155). -/
def wordBytes (w : LinkWord) : List Byte := u32 w.toNat

/-! ## Slots in use and the throttle -/

/-- Slots in use: the number of held snapshot slots (R63). -/
def slotsInUse (s : State) : Nat := (s.aq.snaps.toList.filter Option.isSome).length

/-- The lowest-numbered free snapshot slot (R63). -/
def lowestFree (s : State) : Option (Fin 16) := (List.finRange 16).find? fun i => s.aq.snaps[i].isNone

/-- The throttle goes on, if it is off; the change is handed over as a BUSY-ON frame, replacing one not yet sent (R69,
R71). -/
def throttleOn (s : State) : State :=
  if s.aq.throttle then s
  else (s.mapAq fun q => { q with throttle := true }).mapTx fun t => { t with waitingFrame := some .busyOn }

/-- The throttle goes off, if it is on; the change is handed over as a BUSY-OFF frame, replacing one not yet sent (R70,
R71). -/
def throttleOff (s : State) : State :=
  if s.aq.throttle then
    (s.mapAq fun q => { q with throttle := false }).mapTx fun t => { t with waitingFrame := some .busyOff }
  else s

/-- The throttle goes off outside SUSPENDED when slots in use are at most lo (R70). -/
def throttleRelax (s : State) : State :=
  if s.acq.state ≠ .suspended ∧ slotsInUse s ≤ s.aq.lo then throttleOff s else s

/-! ## Class 3 and occurrences -/

/-- Class 3 is raised (R183). -/
def class3 (s : State) : Bool := s.cond.raised .class3

/-- Entry into SUSPENDED turns the throttle on (R46, R69). -/
def enterSuspended (s : State) : State := throttleOn (s.mapAcq fun a => { a with state := .suspended })

/-- What the Acquisition Controller does at the raising of class 3 (R46). -/
def onClass3Raised (s : State) : State :=
  match s.acq.state with
  | .priming => enterSuspended s
  | .running => enterSuspended s
  | .suspended => s
  | .standby => s
  | .draining => s

/-- What the Acquisition Controller does at the clearing of class 3: SUSPENDED enters RUNNING if the fill count is at least
L and PRIMING otherwise, and the throttle is decided anew (R46, R70). -/
def onClass3Cleared (s : State) : State :=
  match s.acq.state with
  | .suspended =>
    throttleRelax (s.mapAcq fun a => { a with state := if a.startL ≤ s.pipe.fill then .running else .priming })
  | .priming => s
  | .running => s
  | .standby => s
  | .draining => s

/-- Change the Condition Table and hand the controller the raising or clearing of class 3 that results, if one does
(R184). -/
def changeConds (f : CondTable → CondTable) (s : State) : State :=
  let s' := s.mapCond f
  match class3 s, class3 s' with
  | false, true => onClass3Raised s'
  | true, false => onClass3Cleared s'
  | true, true => s'
  | false, false => s'

/-- What an occurrence does to its condition's record (R182). -/
def CondRec.occur (r : CondRec) (ev : Option EventNum) : CondRec :=
  { r with latch := true, count := bump 65535 r.count, first := if r.latch then r.first else ev }

/-- One occurrence of condition c, with the event number it carries, if it carries one (R182, R184). -/
def occur (c : Cond) (ev : Option EventNum) (s : State) : State :=
  changeConds (fun t => { t with recs := put t.recs c.num (t.recs[c.num].occur ev) }) s

/-- Occurrences that carry no event number, one after the other. -/
def occurAll (cs : List Cond) (s : State) : State := cs.foldl (fun s c => occur c none s) s

/-- The occurrence of c when the flag is set. -/
def occurIf (b : Bool) (c : Cond) (ev : Option EventNum) (s : State) : State := if b then occur c ev s else s

/-- Change the activity counters (R189). -/
def tally (f : Counters → Counters) (s : State) : State := s.mapCond fun t => { t with counters := f t.counters }

/-! ## Replies -/

/-- The bytes of a reply frame (R191, R199). -/
def replyFrame (tag : Byte) (status : Status) (summary : BitVec 4) (payload : List Byte) : List Byte :=
  let body := u8 (3 + payload.length) ++ [tag] ++ u8 status.code ++ [0#4 ++ summary] ++ payload
  [0x5D#8] ++ body ++ crcBytes body

/-- Send a reply: it carries the class summary as the Condition Table holds it now (R183). From here on the port is sending, until
the reply's last byte has gone (R194); how many events come meanwhile is a free value (assumption log 3). -/
def answer (tag : Byte) (status : Status) (payload : List Byte) (s : State) : State :=
  s.mapCtl fun c =>
    { c with
      sent := c.sent ++ [replyFrame tag status s.cond.summary payload],
      executing := .sending (Config.replyTime c.sent.length) }

/-- A reply of status OK. -/
def answerOk (r : Request) (payload : List Byte) (s : State) : State := answer r.tag .ok payload s

/-- A refusal with an empty payload (R195). -/
def refuse (r : Request) (status : Status) (s : State) : State := answer r.tag status [] s

/-! ## Reception of requests -/

/-- A complete frame joins the receive buffer, or is discarded with CTL_OVERRUN when the buffer holds 2 (R193). -/
def receiveFrame (f : Frame) (s : State) : State :=
  if s.ctl.buffer.length < Config.maxFrames then s.mapCtl fun c => { c with buffer := c.buffer ++ [f] }
  else occur .ctlOverrun none s

/-- The engine is in manual trim mode (R93). -/
def inManual (s : State) : Bool :=
  match s.trim.engine with
  | .manual _ => true
  | .long _ => false
  | .idle => false

/-- The engine is running a long trim (R84). -/
def inLong (s : State) : Bool :=
  match s.trim.engine with
  | .long _ => true
  | .manual _ => false
  | .idle => false

/-- Acquisition is in STANDBY. -/
def inStandby (s : State) : Bool := decide (s.acq.state = .standby)

/-- No request is in execution, and the reply to the previous one has been sent to its last byte (R194). -/
def portFree (s : State) : Bool := decide (s.ctl.executing = .none)

/-- The Control Port takes a request of the given name: in manual trim mode a command outside that mode's set is refused
BADSTATE before any check of its own (R93); otherwise the command's own rule decides. -/
def takeRequest (takenInManual : Bool) (r : Request) (body : Request → State → State) (s : State) : State :=
  if inManual s && !takenInManual then refuse r .badState s else body r s

end Sys2Proof.Machine
end

