-- ==== Sys2Proof/Machine/Operands.lean ====
section
/-!
DEFINITION. The fields of request payloads and the records of reply payloads: how each is read, with the range its rule
gives it, and how each is written (R196, R200). A reader answers `none` for a field outside its legal values.
-/

namespace Sys2Proof.Machine

/-! ## Whole numbers -/

/-- A number of two bytes, most significant first (R196). -/
def be16 (a b : Byte) : Nat := a.toNat * 256 + b.toNat
/-- A number of three bytes, most significant first (R196). -/
def be24 (a b c : Byte) : Nat := (a.toNat * 256 + b.toNat) * 256 + c.toNat
/-- A number of four bytes, most significant first (R196). -/
def be32 (a b c d : Byte) : Nat := ((a.toNat * 256 + b.toNat) * 256 + c.toNat) * 256 + d.toNat

/-- A number that lies in lo..hi. -/
def inRange (lo hi n : Nat) : Option Nat := if lo ≤ n ∧ n ≤ hi then some n else none

/-- A channel, 0..15. -/
def readChan (b : Byte) : Option Chan := if h : b.toNat < 16 then some ⟨b.toNat, h⟩ else none

/-- A filter set number, 0..7 (R98). -/
def readSet (b : Byte) : Option (Fin 8) := if h : b.toNat < 8 then some ⟨b.toNat, h⟩ else none

/-- A condition number, 0..24 (R185). -/
def readCond (b : Byte) : Option (Fin 25) := if h : b.toNat < 25 then some ⟨b.toNat, h⟩ else none

/-- A channel mask, two bytes, bit n naming channel n (R196). -/
def readMask (a b : Byte) : ChanMask := BitVec.ofNat 16 (be16 a b)

/-- The two bytes of a channel mask. -/
def maskBytes (m : ChanMask) : List Byte := u16 m.toNat

/-! ## Named values -/

/-- off 0, on 1. -/
def readFlag (b : Byte) : Option Bool :=
  match b.toNat with
  | 0 => some false
  | 1 => some true
  | _ => none

/-- HG 0, LG 1. -/
def readGain (b : Byte) : Option Gain :=
  match b.toNat with
  | 0 => some .hg
  | 1 => some .lg
  | _ => none

/-- A gain selector, HG 0, LG 1, BOTH 2: which of the two gains it names (R77, R84). -/
def readGainSel (b : Byte) : Option (PerGain Bool) :=
  match b.toNat with
  | 0 => some ⟨true, false⟩
  | 1 => some ⟨false, true⟩
  | 2 => some ⟨true, true⟩
  | _ => none

/-- A class 0..3 or NONE, coded 4 (R185, R196). -/
def readClass (b : Byte) : Option CondClass :=
  match b.toNat with
  | 0 => some .class0
  | 1 => some .class1
  | 2 => some .class2
  | 3 => some .class3
  | 4 => some .none
  | _ => none

/-- ONESHOT 0, REPEAT 1 (R164). -/
def readTrainMode (b : Byte) : Option TrainMode :=
  match b.toNat with
  | 0 => some .oneShot
  | 1 => some .repeating
  | _ => none

/-- SINGLE 0, CONTINUOUS 1 (R175). -/
def readScanMode (b : Byte) : Option ScanMode :=
  match b.toNat with
  | 0 => some .single
  | 1 => some .continuous
  | _ => none

/-- STAGED 0 (false), ACTIVE 1 (true) (R133). -/
def readCopy (b : Byte) : Option Bool :=
  match b.toNat with
  | 0 => some false
  | 1 => some true
  | _ => none

/-! ## The channel record (R3, R200) -/

/-- The six fields of a channel record after the channel byte, each in its range (R3). -/
def readChanRec (en h1 h0 l1 l0 g1 g0 hs ls : Byte) : Option ChanRec := do
  let enable ← readFlag en
  let hgThreshold ← inRange 1024 4095 (be16 h1 h0)
  let lgThreshold ← inRange 1024 4095 (be16 l1 l0)
  let gainRatio ← inRange 256 32767 (be16 g1 g0)
  let hgSet ← readSet hs
  let lgSet ← readSet ls
  pure { enable, hgThreshold, lgThreshold, gainRatio, hgSet, lgSet }

/-- The ten bytes of a channel record (R200). -/
def chanRecBytes (c : Chan) (r : ChanRec) : List Byte :=
  u8 c.val ++ u8 (flagCode r.enable) ++ u16 r.hgThreshold ++ u16 r.lgThreshold ++ u16 r.gainRatio ++ u8 r.hgSet.val
    ++ u8 r.lgSet.val

/-! ## The sample slot (R200) -/

/-- The four bytes of a sample slot. -/
def slotBytes (x : Slot) : List Byte :=
  wordBytes (x.hg ++ x.lg ++ 0#3 ++ BitVec.ofBool x.clipH ++ BitVec.ofBool x.clipL ++ BitVec.ofBool x.inj
    ++ BitVec.ofBool x.trimStep ++ BitVec.ofBool x.disabled)

/-! ## The list entry (R127, R200) -/

/-- The mode of a list entry, codes 0..4. -/
def readMode (n : Nat) : Option Mode :=
  match n with
  | 0 => some .flags
  | 1 => some .recon
  | 2 => some .reconRaw
  | 3 => some .rawSel
  | 4 => some .rawBoth
  | _ => none

/-- The gain policy of a list entry, codes 0..2. -/
def readPolicy (n : Nat) : Option Policy :=
  match n with
  | 0 => some .auto
  | 1 => some .hg
  | 2 => some .lg
  | _ => none

/-- The suppression mode of a list entry, codes 0..2. -/
def readSuppression (n : Nat) : Option Suppression :=
  match n with
  | 0 => some .keep
  | 1 => some .above
  | 2 => some .abs
  | _ => none

/-- The nine bytes of a list entry; unassigned bits must be 0 (R196), and every field must be legal (R127). -/
def readEntry (b0 b1 b2 t2 t1 t0 u2 u1 u0 : Byte) : Option Entry := do
  let mode ← readMode (b0.extractLsb' 4 4).toNat
  let policy ← readPolicy (b1.extractLsb' 0 2).toNat
  let suppression ← readSuppression (b1.extractLsb' 2 2).toNat
  let _ ← inRange 0 0 (b1.extractLsb' 5 3).toNat
  let peakHi ← inRange (b2.extractLsb' 0 4).toNat 15 (b2.extractLsb' 4 4).toNat
  let threshold ← inRange 0 8388607 (be24 t2 t1 t0)
  let timeThreshold ← inRange 0 8388607 (be24 u2 u1 u0)
  pure { channel := (b0.extractLsb' 0 4).toFin, mode, policy, suppression, threshold, keepOnFlag := b1.getLsbD 4,
         peakLo := (b2.extractLsb' 0 4).toNat, peakHi, timeThreshold }

/-- The nine bytes of a list entry. -/
def entryBytes (e : Entry) : List Byte :=
  u8 (e.channel.val + 16 * e.mode.code)
    ++ u8 (e.policy.code + 4 * e.suppression.code + 16 * flagCode e.keepOnFlag)
    ++ u8 (e.peakLo + 16 * e.peakHi) ++ u24 e.threshold ++ u24 e.timeThreshold

/-! ## Filter coefficients (R99, R196) -/

/-- Coefficients of two bytes each, two's complement; `none` when a byte is left over. -/
def readCoefs : List Byte → Option (List (BitVec 16))
  | [] => some []
  | [_] => none
  | a :: b :: t => (readCoefs t).map fun cs => BitVec.ofNat 16 (be16 a b) :: cs

/-- The bytes of a list of coefficients. -/
def coefBytes (cs : List (BitVec 16)) : List Byte := cs.flatMap fun c => u16 c.toNat

/-! ## Settings of several fields -/

/-- The seven tracking settings of trks: tracking, auto-trim, the two targets, h, m and k (R76). -/
structure TrackSettings where
  tracking : Bool
  autoTrim : Bool
  target : PerGain Nat
  hysteresis : Nat
  blockExp : Nat
  updateExp : Nat
  deriving DecidableEq, Repr

/-- The seven tracking settings, each in its range (R75). -/
def readTrackSettings (te ae h1 h0 l1 l0 hy m k : Byte) : Option TrackSettings := do
  let tracking ← readFlag te
  let autoTrim ← readFlag ae
  let hg ← inRange 16 1023 (be16 h1 h0)
  let lg ← inRange 16 1023 (be16 l1 l0)
  let hysteresis ← inRange 1 64 hy.toNat
  let blockExp ← inRange 4 8 m.toNat
  let updateExp ← inRange 0 7 k.toNat
  pure { tracking, autoTrim, target := ⟨hg, lg⟩, hysteresis, blockExp, updateExp }

/-- The seven settings of a channel as bytes, in the order of trks (R76). -/
def trackSettingBytes (t : TrackSettings) : List Byte :=
  u8 (flagCode t.tracking) ++ u8 (flagCode t.autoTrim) ++ u16 t.target.hg ++ u16 t.target.lg ++ u8 t.hysteresis
    ++ u8 t.blockExp ++ u8 t.updateExp

/-- The settings a channel of the tracker holds. -/
def ChanTrack.settings (c : ChanTrack) : TrackSettings :=
  { tracking := c.tracking, autoTrim := c.autoTrim, target := c.target, hysteresis := c.hysteresis,
    blockExp := c.blockExp, updateExp := c.updateExp }

/-- The three turn settings: turn length, quiet-from and quiet-to (R31). -/
def readTurn (n1 n0 f1 f0 t1 t0 : Byte) : Option (Nat × Nat × Nat) := do
  let len ← inRange 64 4095 (be16 n1 n0)
  let qf ← inRange 0 (len - 1) (be16 f1 f0)
  let qt ← inRange 0 (len - 1) (be16 t1 t0)
  pure (len, qf, qt)

/-- The six train settings of injs (R163, R164). -/
structure TrainSettings where
  mask : ChanMask
  amplitude : Nat
  delay : Nat
  count : Nat
  spacing : Nat
  mode : TrainMode
  deriving DecidableEq, Repr

/-- The six train settings, each in its range (R163). -/
def readTrain (m1 m0 a1 a0 d c sp mo : Byte) : Option TrainSettings := do
  let amplitude ← inRange 0 1023 (be16 a1 a0)
  let count ← inRange 1 16 c.toNat
  let spacing ← inRange 1 255 sp.toNat
  let mode ← readTrainMode mo
  pure { mask := readMask m1 m0, amplitude, delay := d.toNat, count, spacing, mode }

/-- The six train settings as bytes. -/
def trainBytes (t : TrainSettings) : List Byte :=
  maskBytes t.mask ++ u16 t.amplitude ++ u8 t.delay ++ u8 t.count ++ u8 t.spacing ++ u8 t.mode.code

/-- The train settings the injector holds. -/
def Injector.settings (i : Injector) : TrainSettings :=
  { mask := i.mask, amplitude := i.amplitude, delay := i.delay, count := i.count, spacing := i.spacing, mode := i.mode }

/-- The four scan settings of ints (R174, R175). -/
structure ScanSettings where
  startChan : Chan
  endChan : Chan
  mode : ScanMode
  gateLength : Nat
  deriving DecidableEq, Repr

/-- The four scan settings, each in its range, the start channel not above the end channel (R175). -/
def readScan (st en mo g1 g0 : Byte) : Option ScanSettings := do
  let startChan ← readChan st
  let endChan ← readChan en
  let _ ← inRange startChan.val 15 endChan.val
  let mode ← readScanMode mo
  let gateLength ← inRange 16 65535 (be16 g1 g0)
  pure { startChan, endChan, mode, gateLength }

/-- The four scan settings as bytes. -/
def scanBytes (t : ScanSettings) : List Byte :=
  u8 t.startChan.val ++ u8 t.endChan.val ++ u8 t.mode.code ++ u16 t.gateLength

/-- The scan settings the monitor holds. -/
def Integrator.settings (i : Integrator) : ScanSettings :=
  { startChan := i.startChan, endChan := i.endChan, mode := i.mode, gateLength := i.gateLength }

end Sys2Proof.Machine
end

