-- ==== Sys2Proof/Machine/Conditions.lean ====
section
/-!
DEFINITION. Chapter 10: the commands on the Condition Table, cmap, cclr, cond and cntr (R185 to R190).
-/

namespace Sys2Proof.Machine

/-- cmap (R185): maps a condition to a class, acting on the class summary at once, or reads the map. -/
def cmapBody (r : Request) (s : State) : State :=
  match r.payload with
  | [] => answerOk r ((List.finRange 25).flatMap fun i => u8 s.cond.recs[i].cls.code) s
  | [n] =>
    match readCond n with
    | none => refuse r .badArg s
    | some i => answerOk r (u8 i.val ++ u8 s.cond.recs[i].cls.code ++ u8 (flagCode s.cond.recs[i].latch)) s
  | [n, c] =>
    match readCond n, readClass c with
    | some i, some k =>
      answerOk r (u8 i.val ++ u8 k.code)
        (changeConds (fun t => { t with recs := put t.recs i { t.recs[i] with cls := k } }) s)
    | some _, none => refuse r .badArg s
    | none, some _ => refuse r .badArg s
    | none, none => refuse r .badArg s
  | _ => refuse r .badLen s

/-- A condition record with its latch, count and first event cleared; the class is kept (R186). -/
def CondRec.clear (r : CondRec) : CondRec := { r with latch := false, count := 0, first := none }

/-- Clear the conditions a 32-bit mask names (R186). -/
def CondTable.clearNamed (m : Nat) (t : CondTable) : CondTable :=
  { t with recs := tab fun i => if m.testBit i.val then t.recs[i].clear else t.recs[i] }

/-- cclr (R186): clears the named conditions and recomputes the class summary. The reply is formed before the next event, or after
events of the same moment, which a free value counts: then it shows what they latched (R187, assumption log 31). -/
def cclrBody (r : Request) (s : State) : State :=
  match r.payload with
  | [a, b, c, d] =>
    let m := be32 a b c d
    if 2 ^ 25 ≤ m then refuse r .badArg s
    else
      (changeConds (CondTable.clearNamed m) s).mapCtl fun x =>
        { x with executing := .cclr r.tag (Config.sameMoment x.sent.length) }
  | _ => refuse r .badLen s

/-- The reply of an executed cclr: the mask of the conditions latched now, in a frame that carries the class summary (R186,
R187). -/
def cclrReply (tag : Byte) (s : State) : State := answer tag .ok (u32 s.cond.latched) s

/-- A condition record in a cond reply: number, latch, count, class, first event, and the mark saying whether it is present
(R188). The field of an absent first event holds `blank`. -/
def condRecBytes (blank : EventNum) (i : Fin 25) (r : CondRec) : List Byte :=
  u8 i.val ++ u8 (flagCode r.latch) ++ u16 r.count ++ u8 r.cls.code ++ u24 (r.first.getD blank).toNat
    ++ u8 (flagCode r.first.isSome)

/-- cond (R188): reads condition records; the reply also carries the mask of latched conditions. The contents of an absent
first event are a free value (assumption log 6). -/
def condBody (r : Request) (s : State) : State :=
  let blank := fun i : Fin 25 => Config.absentEvent (s.freeIndex + i.val)
  match r.payload with
  | [] =>
    (answerOk r (((List.finRange 25).flatMap fun i => condRecBytes (blank i) i s.cond.recs[i])
      ++ u32 s.cond.latched) s).mapFreeIndex (· + 25)
  | [n] =>
    match readCond n with
    | none => refuse r .badArg s
    | some i =>
      (answerOk r (condRecBytes (blank i) i s.cond.recs[i] ++ u32 s.cond.latched) s).mapFreeIndex (· + 25)
  | _ => refuse r .badLen s

/-- The ten activity counters as bytes, in the order of R189. -/
def Counters.bytes (c : Counters) : List Byte :=
  u32 c.accSeen.toNat ++ u32 c.recMade.toNat ++ u32 c.accNoRec.toNat ++ u32 c.noSnaps.toNat ++ u32 c.ruleV.toNat
    ++ u32 c.frags.toNat ++ u32 c.words.toNat ++ u32 c.blocks.toNat ++ u32 c.suppressed.toNat ++ u32 c.missed.toNat

/-- The clear of cntr: the counters to 0, the high-water marks to the current numbers (R73, R190). -/
def clearCounters (s : State) : State :=
  (tally (fun _ => Counters.zero) s).mapAq fun q =>
    { q with recordMark := q.records.length, slotMark := slotsInUse s }

/-- cntr (R190): reads the activity counters and high-water marks, and may clear them after the reading. -/
def cntrBody (r : Request) (s : State) : State :=
  let reading := s.cond.counters.bytes ++ u8 s.aq.recordMark ++ u8 s.aq.slotMark
  match r.payload with
  | [] => answerOk r reading s
  | [o] =>
    match readFlag o with
    | none => refuse r .badArg s
    | some false => answerOk r reading s
    | some true => answerOk r reading (clearCounters s)
  | _ => refuse r .badLen s

end Sys2Proof.Machine
end

