-- ==== Sys2Proof/Machine/ControlPort.lean ====
section
/-!
DEFINITION. Chapter 11: the answer to an unknown command (R195), and the commands stat and idnt (R197, R198).
-/

namespace Sys2Proof.Machine

/-! ## Unknown commands -/

/-- The answer to a name that is none of the part's commands, in every state (R195). -/
def unknownBody (r : Request) (s : State) : State := refuse r .unknown s

/-! ## stat and idnt -/

/-- The eighteen bytes of stat (R197). -/
def statBytes (s : State) : List Byte :=
  u8 s.acq.state.code ++ u8 s.clk.state.code ++ u8 s.timing.link.code ++ u8 s.trim.engine.code ++ u8 s.inj.state.code
    ++ u8 s.integ.scan.code ++ u16 s.pipe.fill ++ u8 s.aq.records.length ++ u8 (slotsInUse s) ++ u8 s.aq.recordMark
    ++ u8 s.aq.slotMark ++ u16 s.tx.buffer.length ++ u8 s.tx.credits ++ u8 (flagCode s.aq.throttle)
    ++ u8 (flagCode s.list.pending) ++ u8 s.list.generation.toNat

/-- stat (R197): reads the part's status summary. -/
def statBody (r : Request) (s : State) : State :=
  match r.payload with
  | [] => answerOk r (statBytes s) s
  | _ => refuse r .badLen s

/-- The family code, the revision and the seven capacities (R198). -/
def identBytes : List Byte :=
  u16 0x1624 ++ u8 1 ++ u16 16 ++ u16 Config.ringSlots ++ u16 Config.maxRecords ++ u16 Config.snapshotSlots
    ++ u16 Config.maxEntries ++ u16 Config.maxPulses ++ u16 Config.bufferWords

/-- idnt (R198): reads the family code, revision and capacities. -/
def idntBody (r : Request) (s : State) : State :=
  match r.payload with
  | [] => answerOk r identBytes s
  | _ => refuse r .badLen s

end Sys2Proof.Machine
end

