-- ==== Sys2Proof/Machine/ReadoutList.lean ====
section
/-!
DEFINITION. Chapter 7: the Readout List's edits, its reading and its commits (R126 to R139), and the entry of acquisition
into STANDBY, which applies a pending commit (R48, R137).
-/

namespace Sys2Proof.Machine

/-- Apply a commit: staged is copied to active, the generation advances, pending is cleared and the swap mark set (R137). -/
def applyCommit (s : State) : State :=
  s.mapList fun l => { l with active := l.staged, generation := l.generation + 1, pending := false, swap := true }

/-- Acquisition enters STANDBY, by draining or by rset; a pending commit is applied with LIST_SWAP_STOP (R48, R137). -/
def enterStandby (s : State) : State :=
  let s1 := s.mapAcq fun a => { a with state := .standby }
  if s.list.pending then occur .listSwapStop none (applyCommit s1) else s1

/-- The number of entries the staged copy holds. -/
def stagedCount (s : State) : Nat := s.list.staged.length

/-- Change the staged copy (R129). -/
def editStaged (f : List Entry → List Entry) (s : State) : State := s.mapList fun l => { l with staged := f l.staged }

/-- lclr (R129, R130): empties the staged copy. -/
def lclrBody (r : Request) (s : State) : State :=
  match r.payload with
  | [] => if s.list.pending then refuse r .busy s else answerOk r (u8 0) (editStaged (fun _ => []) s)
  | _ => refuse r .badLen s

/-- lapp (R129, R130): appends an entry. The reply carries the number of entries after the edit and the new entry's index,
the number held before (assumption log 12). -/
def lappBody (r : Request) (s : State) : State :=
  match r.payload with
  | [b0, b1, b2, t2, t1, t0, u2, u1, u0] =>
    if s.list.pending then refuse r .busy s
    else
      match readEntry b0 b1 b2 t2 t1 t0 u2 u1 u0 with
      | none => refuse r .badArg s
      | some e =>
        if Config.maxEntries ≤ stagedCount s then refuse r .full s
        else answerOk r (u8 (stagedCount s + 1) ++ u8 (stagedCount s)) (editStaged (fun l => l ++ [e]) s)
  | _ => refuse r .badLen s

/-- lins (R129, R131): inserts an entry at an index. -/
def linsBody (r : Request) (s : State) : State :=
  match r.payload with
  | [i, b0, b1, b2, t2, t1, t0, u2, u1, u0] =>
    if s.list.pending then refuse r .busy s
    else
      match inRange 0 (stagedCount s) i.toNat, readEntry b0 b1 b2 t2 t1 t0 u2 u1 u0 with
      | some k, some e =>
        if Config.maxEntries ≤ stagedCount s then refuse r .full s
        else answerOk r (u8 (stagedCount s + 1) ++ u8 k) (editStaged (fun l => l.take k ++ e :: l.drop k) s)
      | some _, none => refuse r .badArg s
      | none, some _ => refuse r .badArg s
      | none, none => refuse r .badArg s
  | _ => refuse r .badLen s

/-- lrem (R129, R132): removes the entry at an index. -/
def lremBody (r : Request) (s : State) : State :=
  match r.payload with
  | [i] =>
    if s.list.pending then refuse r .busy s
    else if i.toNat < stagedCount s then
      answerOk r (u8 (stagedCount s - 1) ++ u8 i.toNat) (editStaged (fun l => l.take i.toNat ++ l.drop (i.toNat + 1)) s)
    else refuse r .badArg s
  | _ => refuse r .badLen s

/-- lrep (R129, R132): replaces the entry at an index. -/
def lrepBody (r : Request) (s : State) : State :=
  match r.payload with
  | [i, b0, b1, b2, t2, t1, t0, u2, u1, u0] =>
    if s.list.pending then refuse r .busy s
    else
      match readEntry b0 b1 b2 t2 t1 t0 u2 u1 u0 with
      | none => refuse r .badArg s
      | some e =>
        if i.toNat < stagedCount s then
          answerOk r (u8 (stagedCount s) ++ u8 i.toNat) (editStaged (fun l => l.set i.toNat e) s)
        else refuse r .badArg s
  | _ => refuse r .badLen s

/-- lrds (R133): reads entries of the staged or the active copy. -/
def lrdsBody (r : Request) (s : State) : State :=
  match r.payload with
  | [c, f, n] =>
    match readCopy c, inRange 0 32 f.toNat, inRange 0 16 n.toNat with
    | some act, some first, some count =>
      let copy := if act then s.list.active else s.list.staged
      if first + count ≤ copy.length then
        answerOk r
          (u8 (flagCode act) ++ u8 copy.length ++ u8 s.list.generation.toNat ++ u8 (flagCode s.list.pending) ++ u8 first
            ++ u8 count ++ ((copy.drop first).take count).flatMap entryBytes) s
      else refuse r .badArg s
    | _, _, _ => refuse r .badArg s
  | _ => refuse r .badLen s

/-- The reply of lcom: the generation, the pending flag, and whether the commit was applied (R134, R135). DESIGN CHOICE
(assumption log 37): the indication is one byte, 1 for applied and 0 for not applied. -/
def lcomReply (r : Request) (applied : Bool) (s : State) : State :=
  answerOk r (u8 s.list.generation.toNat ++ u8 (flagCode s.list.pending) ++ u8 (flagCode applied)) s

/-- lcom (R134, R135): commits at once in STANDBY, and sets the commit pending otherwise. -/
def lcomBody (r : Request) (s : State) : State :=
  match r.payload with
  | [] =>
    if inStandby s then lcomReply r true (applyCommit s)
    else lcomReply r false (s.mapList fun l => { l with pending := true })
  | _ => refuse r .badLen s

end Sys2Proof.Machine
end

