-- ==== Sys2Proof/Machine/Reconstruction.lean ====
section
/-!
DEFINITION. Chapter 6: the Filter Set Table's command filt (R99) and the arithmetic that reduces one list entry's window to
its words and flags (R100 to R125). The computation is a function of the entry, the captured channel, the channel record and
the filter sets.
-/

namespace Sys2Proof.Machine

/-! ## filt -/

/-- A filter set's length (R98). -/
def FilterSet.length (f : FilterSet) : Nat := f.a.length

/-- filt (R99): writes or reads one filter set. -/
def filtBody (r : Request) (s : State) : State :=
  match r.payload with
  | [] => refuse r .badLen s
  | [n] =>
    match readSet n with
    | none => refuse r .badArg s
    | some k =>
      answerOk r
        (u8 k.val ++ u8 s.filt.sets[k].length ++ coefBytes s.filt.sets[k].a ++ coefBytes s.filt.sets[k].b) s
  | k :: n :: rest =>
    if !inStandby s then refuse r .badState s
    else
      match readSet k, inRange 3 16 n.toNat with
      | some k, some n =>
        match readCoefs rest with
        | none => refuse r .badLen s
        | some cs =>
          if cs.length = 2 * n then
            answerOk r (u8 k.val ++ u8 n) (s.mapFilt fun t => { t with sets := put t.sets k ⟨cs.take n, cs.drop n⟩ })
          else refuse r .badLen s
      | some _, none => refuse r .badArg s
      | none, some _ => refuse r .badArg s
      | none, none => refuse r .badArg s

/-! ## Gain selection and differences -/

/-- The code of one gain of a slot. -/
def Slot.code (x : Slot) : Gain → Code
  | .hg => x.hg
  | .lg => x.lg

/-- SAT: any HG code of the window is at least the HG threshold (R105). -/
def satFlag (rec : ChanRec) (win : List Slot) : Bool := win.any fun x => decide (rec.hgThreshold ≤ x.hg.toNat)

/-- OVF: any LG code of the window is at least the LG threshold (R105). -/
def ovfFlag (rec : ChanRec) (win : List Slot) : Bool := win.any fun x => decide (rec.lgThreshold ≤ x.lg.toNat)

/-- The gain used (R104). -/
def gainUsed (p : Policy) (sat : Bool) : Gain :=
  match p with
  | .auto => if sat then .lg else .hg
  | .hg => .hg
  | .lg => .lg

/-- FORCED is set for the policies HG and LG (R104). -/
def forcedFlag : Policy → Bool
  | .auto => false
  | .hg => true
  | .lg => true

/-- The differences d_i = 16·s_i − P of the gain used (R106). -/
def differences (g : Gain) (ped : PerGain Nat) (win : List Slot) : List Int :=
  win.map fun x => 16 * ((x.code g).toNat : Int) - (ped.get g : Int)

/-- A weighted sum of the differences (R107). -/
def weightedSum (c : List (BitVec 16)) (d : List Int) : Int := (List.zipWith (fun k x => k.toInt * x) c d).sum

/-! ## Amplitude, time and peak -/

/-- The amplitude before the clamp (R108, R109). -/
def rawAmplitude (g : Gain) (ratio : Nat) (sa : Int) : Int :=
  match g with
  | .hg => roundBy 16 sa
  | .lg => roundBy 24 (sa * (ratio : Int))

/-- The amplitude E, clamped (R110). -/
def amplitude (g : Gain) (ratio : Nat) (sa : Int) : Int := clampTo (-8388608) 8388607 (rawAmplitude g ratio sa)

/-- A time is computed when E is at least the time threshold and S_a is above 0 (R111). -/
def hasTime (e sa : Int) (threshold : Nat) : Bool := decide ((threshold : Int) ≤ e ∧ 0 < sa)

/-- The time before the clamp: the quotient of the magnitudes, rounded to the nearest, with the sign of S_b (R112). -/
def rawTime (sa sb : Int) : Int :=
  let q := ((sb.natAbs : Int) * 256 + sa / 2) / sa
  if 0 < sb then q else if sb < 0 then -q else 0

/-- The time T, clamped (R113). -/
def time (sa sb : Int) : Int := clampTo (-32768) 32767 (rawTime sa sb)

/-- The position and value of the earliest largest element from position i on, given the best so far (R114). -/
def peakFrom (i best : Nat) (m : Int) : List Int → Nat
  | [] => best
  | x :: t => if m < x then peakFrom (i + 1) i x t else peakFrom (i + 1) best m t

/-- The peak index: the smallest i for which d_i is the largest difference (R114). -/
def peakIndex : List Int → Nat
  | [] => 0
  | x :: t => peakFrom 1 0 x t

/-! ## Suppression -/

/-- The suppression test (R116). -/
def passes (e : Entry) (amp : Int) : Bool :=
  match e.suppression with
  | .keep => true
  | .above => decide ((e.threshold : Int) ≤ amp)
  | .abs => decide (e.threshold ≤ amp.natAbs)

/-- An entry that failed the test is kept by keep-on-flag when any of SAT, OVF, CLAMP, HELD or STALE is set (R117). -/
def keptByFlag (e : Entry) (sat ovf clamp held stale : Bool) : Bool :=
  e.keepOnFlag && (sat || ovf || clamp || held || stale)

/-! ## Words -/

/-- The head word of an entry (R120, R203). -/
def headWord (c : Chan) (m : Mode) (len : Nat) (f : EntryFlags) : LinkWord :=
  BitVec.ofNat 4 c.val ++ BitVec.ofNat 3 m.code ++ BitVec.ofNat 5 len ++ 0#4 ++ f.bits

/-- The second word of RECON: the amplitude and the peak index (R121, R203). -/
def ampWord (amp : Int) (peak : Nat) : LinkWord := BitVec.ofInt 24 amp ++ 0#4 ++ BitVec.ofNat 4 peak

/-- The third word of RECON: the time and the peak code (R121, R203). -/
def timeWord (t : Int) (code : Code) : LinkWord := BitVec.ofInt 16 t ++ 0#4 ++ code

/-- One half of a raw word (R122, R203). -/
def rawHalf (g : Gain) (x : Slot) : BitVec 16 :=
  let clip := match g with
    | .hg => x.clipH
    | .lg => x.clipL
  BitVec.ofBool x.disabled ++ BitVec.ofBool x.trimStep ++ BitVec.ofBool x.inj ++ BitVec.ofBool clip ++ x.code g

/-- The raw words of one gain, two slots a word, with a filler half where N is odd (R122). -/
def rawWords (g : Gain) : List Slot → List LinkWord
  | [] => []
  | [x] => [rawHalf g x ++ 0x9000#16]
  | x :: y :: t => (rawHalf g x ++ rawHalf g y) :: rawWords g t

/-- The words after the head word of an entry emitted in a mode (R121, R123). -/
def bodyWords (m : Mode) (g : Gain) (win : List Slot) (amp t : Int) (peak : Nat) (code : Code) : List LinkWord :=
  match m with
  | .flags => []
  | .recon => [ampWord amp peak, timeWord t code]
  | .reconRaw => [ampWord amp peak, timeWord t code] ++ rawWords g win
  | .rawSel => rawWords g win
  | .rawBoth => rawWords .hg win ++ rawWords .lg win

/-! ## One entry -/

/-- What the unit hands back for one entry (R125): its flags, its words, or `none` when it is suppressed. -/
structure EntryResult where
  flags : EntryFlags
  words : Option (List LinkWord)
  deriving DecidableEq, Repr

/-- The emitted words of an entry: the head word, with the length of the whole, and the words after it (R120, R124). -/
def emit (c : Chan) (m : Mode) (f : EntryFlags) (body : List LinkWord) : List LinkWord :=
  headWord c m (1 + body.length) f :: body

/-- The flags-only entry of a DISABLED channel (R102). -/
def disabledEntry (e : Entry) (snap : ChanSnap) : EntryResult :=
  let pass := passes e 0
  let kept := !pass && keptByFlag e false false false snap.held snap.stale
  let f : EntryFlags :=
    { sat := false, ovf := false, clamp := false, noTime := false, tClamp := false, peakOut := false, held := snap.held,
      stale := snap.stale, disabled := true, trimStep := false, inj := false, kept := kept, forced := false,
      gainLg := false }
  { flags := f, words := if pass || kept then some (emit e.channel .flags f []) else none }

/-- The entry of a channel that is not DISABLED (R103 to R124). -/
def computedEntry (e : Entry) (snap : ChanSnap) (rec : ChanRec) (sets : Vector FilterSet 8) : EntryResult :=
  let win := snap.window
  let sat := satFlag rec win
  let ovf := ovfFlag rec win
  let g := gainUsed e.policy sat
  let d := differences g snap.pedestal win
  let set := match g with
    | .hg => sets[rec.hgSet]
    | .lg => sets[rec.lgSet]
  let sa := weightedSum set.a d
  let sb := weightedSum set.b d
  let amp := amplitude g rec.gainRatio sa
  let clamped := decide (amp ≠ rawAmplitude g rec.gainRatio sa)
  let timed := hasTime amp sa e.timeThreshold
  let t := if timed then time sa sb else 0
  let tClamped := timed && decide (time sa sb ≠ rawTime sa sb)
  let peak := peakIndex d
  let code := (win.getD peak Slot.cleared).code g
  let pass := passes e amp
  let kept := !pass && keptByFlag e sat ovf clamped snap.held snap.stale
  let f : EntryFlags :=
    { sat := sat, ovf := ovf, clamp := clamped, noTime := !timed, tClamp := tClamped,
      peakOut := decide (peak < e.peakLo ∨ e.peakHi < peak), held := snap.held, stale := snap.stale, disabled := false,
      trimStep := win.any Slot.trimStep, inj := win.any Slot.inj, kept := kept, forced := forcedFlag e.policy,
      gainLg := decide (g = .lg) }
  { flags := f,
    words := if pass || kept then some (emit e.channel e.mode f (bodyWords e.mode g win amp t peak code)) else none }

/-- The computation of one entry (R100, R102). -/
def reconstruct (e : Entry) (snap : ChanSnap) (rec : ChanRec) (sets : Vector FilterSet 8) : EntryResult :=
  if snap.disabled then disabledEntry e snap else computedEntry e snap rec sets

end Sys2Proof.Machine
end

