-- ==== Sys2Proof/Machine/Fragments.lean ====
section
/-!
DEFINITION. Chapter 8: the Fragment Builder (R140 to R150), the output buffer and the Readout Transmitter (R151 to R162), and
the end of draining (R48), which the builder and the transmitter test for.
-/

namespace Sys2Proof.Machine

/-! ## The end of draining -/

/-- The Accept Queue holds no record, the builder is IDLE and the output buffer is empty (R48). -/
def drained (s : State) : Bool :=
  s.aq.records.isEmpty && decide (s.builder.state = .idle) && s.tx.buffer.isEmpty

/-- The controller's test for the end of draining: DRAINING enters STANDBY when the part is drained (R48). -/
def drainTest (s : State) : State := if s.acq.state = .draining ∧ drained s then enterStandby s else s

/-! ## A fragment's words -/

/-- The fragment length: 4 header words, the assembly, 1 trailer word (R144, R149). -/
def Build.length (b : Build) : Nat := 5 + b.words.length

/-- The pulse index field: the record's pulse index, 0 when CAL is clear (R147). -/
def Record.pulseField (r : Record) : Nat := r.pulse.getD 0

/-- The four header words, with the class summary and the source id of the append (R147, R203). -/
def headerWords (b : Build) (summary : BitVec 4) (sourceId : Nat) : List LinkWord :=
  [0xF7#8 ++ BitVec.ofNat 8 sourceId ++ 0#6 ++ BitVec.ofNat 10 b.length,
   b.recordFlags ++ b.record.event,
   summary ++ b.generation ++ BitVec.ofNat 3 b.record.kind.reasonCode ++ BitVec.ofNat 4 b.record.pulseField ++ 0#1
     ++ BitVec.ofNat 12 b.record.crossing,
   BitVec.ofNat 16 b.record.gap ++ 0#2 ++ BitVec.ofNat 6 b.emitted ++ 0#2 ++ BitVec.ofNat 6 b.suppressed]

/-- The trailer word (R149, R203). -/
def trailerWord (b : Build) : LinkWord := 0x7F#8 ++ b.record.event

/-- The fragment as it enters the output buffer: header, entries, trailer (R145). -/
def fragmentWords (b : Build) (summary : BitVec 4) (sourceId : Nat) : List LinkWord :=
  headerWords b summary sourceId ++ b.words ++ [trailerWord b]

/-! ## Record start, build and append -/

/-- Hand the Reconstruction Unit the entry at a position of the active list, for a full record (R142, R100). -/
def handEntry (rec : Record) (pos : Nat) (s : State) : Option InFlight :=
  match rec.kind with
  | .nosnap _ => none
  | .full slot => (s.list.active[pos]?).map fun e => { entry := e, event := rec.event, slot := slot }

/-- A record start on the head record (R141): a pending commit is applied, the record's fields are copied, and the first
entry, if there is one, is handed over. -/
def startRecord (rec : Record) (s : State) : State :=
  let s1 := if s.list.pending then applyCommit s else s
  s1.mapBuilder fun _ =>
    { state := .building
        { record := rec, generation := s1.list.generation, listNew := s1.list.swap, words := [], emitted := 0,
          suppressed := 0, position := 0, flags := 0 },
      inFlight := handEntry rec 0 s1 }

/-- Remove the head record, release its snapshot slot if it holds one, and reconsider the throttle (R67, R68). -/
def removeHead (s : State) : State :=
  match s.aq.records with
  | [] => s
  | r :: rest =>
    match r.kind with
    | .nosnap _ => s.mapAq fun q => { q with records := rest }
    | .full slot => throttleRelax (s.mapAq fun q => { q with records := rest, snaps := put q.snaps slot none })

/-- The append of a READY fragment (R145): its words enter the buffer whole, FRAGS and WORDS count it, the record leaves the
queue, the swap mark is cleared, the builder enters IDLE and the end of draining is tested. -/
def appendFragment (b : Build) (s : State) : State :=
  let frag := fragmentWords b s.cond.summary s.tx.sourceId
  let s1 := s.mapTx fun t => { t with buffer := t.buffer ++ frag }
  let s2 := tally (fun c => { c with frags := c.frags + 1, words := c.words + BitVec.ofNat 32 b.length }) s1
  let s3 := removeHead s2
  let s4 := s3.mapList fun l => { l with swap := false }
  drainTest (s4.mapBuilder fun _ => { state := .idle, inFlight := none })

/-- A fragment fits when the buffer's free space is at least its length (R145). -/
def fits (b : Build) (s : State) : Bool := decide (s.tx.buffer.length + b.length ≤ Config.bufferWords)

/-- A build with no entry left to compute completes, and the builder enters READY (R142 to R144). -/
def buildDone (s : State) : Bool := s.builder.inFlight.isNone

/-- Run the builder as far as it can go within one event: an IDLE builder with a record starts it, a build with no entry in
flight completes, a READY fragment that fits is appended, and so on with the next record (R141, R143 to R145). -/
def runBuilder : Nat → State → State
  | 0, s => s
  | k + 1, s =>
    match s.builder.state with
    | .idle =>
      match s.aq.records with
      | [] => s
      | r :: _ => runBuilder k (startRecord r s)
    | .building b =>
      if buildDone s then runBuilder k (s.mapBuilder fun _ => { state := .ready b, inFlight := none }) else s
    | .ready b => if fits b s then runBuilder k (appendFragment b s) else s

/-- Three things happen to each record at most, and the list holds a bounded number of records. -/
def settleBuilder (s : State) : State := runBuilder (3 * s.aq.records.length + 3) s

/-- A record start that is due is made, and what follows from it (R141). -/
def recordStart (s : State) : State :=
  match s.builder.state, s.aq.records with
  | .idle, _ :: _ => settleBuilder s
  | .idle, [] => s
  | .building _, _ => s
  | .ready _, _ => s

/-- A READY fragment that fits is appended, and what follows from it (R145). -/
def fragmentAppend (s : State) : State :=
  match s.builder.state with
  | .ready b => if fits b s then settleBuilder s else s
  | .idle => s
  | .building _ => s

/-! ## Completion of an entry -/

/-- What the builder does with a result (R142): an emitted entry's words, flags and count, or a suppressed count; then the
next entry is handed over. -/
def takeResult (b : Build) (res : EntryResult) (s : State) : State :=
  let pos := b.position + 1
  let b' : Build := match res.words with
    | some ws =>
      { b with words := b.words ++ ws, emitted := b.emitted + 1, flags := b.flags ||| res.flags.bits, position := pos }
    | none => { b with suppressed := b.suppressed + 1, position := pos }
  s.mapBuilder fun _ => { state := .building b', inFlight := handEntry b.record pos s }

/-- The result of the entry in flight (R100, R101). A snapshot slot that is not held gives none. -/
def entryResult (f : InFlight) (s : State) : Option EntryResult :=
  (s.aq.snaps[f.slot]).map fun snap =>
    reconstruct f.entry snap[f.entry.channel] s.front.recs[f.entry.channel] s.filt.sets

/-- The occurrences an entry hands the Condition Table at its completion: SUPPRESSED and LG_OVF (R125). -/
def entryOccurrences (ev : EventNum) (res : EntryResult) (s : State) : State :=
  let s1 := if res.words.isNone then tally (fun c => { c with suppressed := c.suppressed + 1 }) s else s
  occurIf res.flags.ovf .lgOvf (some ev) s1

/-- The completion of the entry in flight (R125): its occurrences, its result at the builder, and what follows in the same
event (R142, R144, R145). The occurrences come first (assumption log 7). -/
def completeEntry (s : State) : State :=
  match s.builder.inFlight, s.builder.state with
  | some f, .building b =>
    match entryResult f s with
    | some res => settleBuilder (takeResult b res (entryOccurrences f.event res s))
    | none => s
  | some _, .idle => s
  | some _, .ready _ => s
  | none, _ => s

/-! ## srci and stlm -/

/-- srci (R150): writes or reads the source id. -/
def srciBody (r : Request) (s : State) : State :=
  match r.payload with
  | [] => answerOk r (u8 s.tx.sourceId) s
  | [v] => answerOk r (u8 v.toNat) (s.mapTx fun t => { t with sourceId := v.toNat })
  | _ => refuse r .badLen s

/-- The top of the stall timer (R159). -/
def stallTop (t : Transmitter) : Nat := t.stallLimit * 256

/-- stlm (R160): writes or reads the stall limit; a timer above the new top is set to it. -/
def stlmBody (r : Request) (s : State) : State :=
  match r.payload with
  | [] => answerOk r (u16 s.tx.stallLimit ++ u24 s.tx.stallTimer ++ u8 (flagCode s.tx.stallMark)) s
  | [a, b] =>
    match inRange 1 65535 (be16 a b) with
    | none => refuse r .badArg s
    | some n =>
      answerOk r (u16 n) (s.mapTx fun t => { t with stallLimit := n, stallTimer := min t.stallTimer (n * 256) })
  | _ => refuse r .badLen s

/-! ## The outbound link -/

/-- The words of the buffer outside a begun block (R153). -/
def unbegun (t : Transmitter) : Nat := t.buffer.length - t.begun.getD 0

/-- The start word of a block of n data words (R202). -/
def startWord (n : Nat) : LinkWord := 0xB5#8 ++ 0#17 ++ BitVec.ofNat 7 n

/-- The CRC word of a block: its check is formed over the start word and the data words (R155, R202). -/
def crcWord (data : List LinkWord) : LinkWord :=
  0xC5#8 ++ 0#8 ++ crc16 ((startWord data.length :: data).flatMap wordBytes)

/-- The word of a throttle frame (R202). -/
def ThrottleFrame.word : ThrottleFrame → LinkWord
  | .busyOn => 0xE1000001#32
  | .busyOff => 0xE1000000#32

/-- A BUSY-OFF that rset waits for has been sent (R49). -/
def Execution.busyOffSent : Execution → Execution
  | .rset tag _ => .rset tag false
  | .none => .none
  | .trms tag => .trms tag
  | .cclr tag n => .cclr tag n
  | .sending n => .sending n

/-- The transmitter sends the throttle frame that waits, without credit (R158). -/
def sendThrottle (f : ThrottleFrame) (s : State) : State :=
  (s.mapTx fun t => { t with waitingFrame := none, sent := t.sent ++ [f.word] }).mapCtl fun c =>
    { c with executing := c.executing.busyOffSent }

/-- A block begins (R154): it takes up to 64 of the oldest words and one credit, counts in BLOCKS, and ends the stall
episode; its start word is sent. -/
def beginBlock (s : State) : State :=
  let n := min Config.blockWords s.tx.buffer.length
  tally (fun c => { c with blocks := c.blocks + 1 })
    (s.mapTx fun t =>
      { t with begun := some n, credits := t.credits - 1, stallTimer := 0, stallMark := false,
               sent := t.sent ++ [startWord n] })

/-- An idle word is sent (R153). -/
def sendIdle (s : State) : State := s.mapTx fun t => { t with sent := t.sent ++ [0#32] }

/-- What the transmitter begins at a frame boundary (R153). Inside a block there is no boundary (R152). -/
def frameBoundary (s : State) : State :=
  match s.tx.begun, s.tx.waitingFrame with
  | some _, _ => s
  | none, some f => sendThrottle f s
  | none, none => if 0 < s.tx.credits ∧ 0 < unbegun s.tx then beginBlock s else sendIdle s

/-- The begun block's data words and its CRC word have been sent; its words leave the buffer (R155). -/
def releaseBlock (n : Nat) (s : State) : State :=
  s.mapTx fun t =>
    { t with buffer := t.buffer.drop n, begun := none, sent := t.sent ++ t.buffer.take n ++ [crcWord (t.buffer.take n)] }

/-- The completion of the begun block (R155): its words leave, a READY fragment that now fits is appended, and the end of
draining is tested. -/
def completeBlock (s : State) : State :=
  match s.tx.begun with
  | none => s
  | some n => drainTest (settleBuilder (releaseBlock n s))

/-! ## Credits and the stall timer -/

/-- A credit frame passes its check (R156, R202). -/
def creditGood (w : LinkWord) : Bool :=
  decide (w.extractLsb' 24 8 = 0xA3#8) && decide (w.extractLsb' 8 16 = 0#16)
    && decide (w.extractLsb' 4 4 = ~~~ w.extractLsb' 0 4)

/-- The credit count a frame carries (R202). -/
def creditCount (w : LinkWord) : Nat := (w.extractLsb' 0 4).toNat

/-- An inbound word (R156, R202): idle is ignored, a bad frame or a count of 0 is discarded with RL_CREDIT_ERR, and any other
adds its count, up to 15 with RL_CREDIT_OVF. -/
def creditFrame (w : LinkWord) (s : State) : State :=
  if w = 0#32 then s
  else if creditGood w ∧ 0 < creditCount w then
    let sum := s.tx.credits + creditCount w
    occurIf (decide (Config.maxCredits < sum)) .rlCreditOvf none
      (s.mapTx fun t => { t with credits := min Config.maxCredits sum })
  else occur .rlCreditErr none s

/-- The transmitter is waiting (R159). -/
def waiting (s : State) : Bool := decide (0 < unbegun s.tx ∧ s.tx.credits = 0)

/-- A crossing arrival at the transmitter; `finds` says whether it finds the transmitter waiting (R159). -/
def stallTick (finds : Bool) (s : State) : State :=
  let timer := if finds then bump (stallTop s.tx) s.tx.stallTimer else s.tx.stallTimer
  let fires := finds && decide (timer = stallTop s.tx) && !s.tx.stallMark
  occurIf fires .rlStall none (s.mapTx fun t => { t with stallTimer := timer, stallMark := t.stallMark || fires })

end Sys2Proof.Machine
end

