-- ==== Sys2Proof/Machine/Injector.lean ====
section
/-!
DEFINITION. Chapter 9, section 9.1: the Charge Injector's commands injs, inja, injd and injf, the requests, the firings, the
pending pulse list and its expiry and retirement (R163 to R173).
-/

namespace Sys2Proof.Machine

/-! ## Settings, arming and disarming -/

/-- A pulse record as bytes: serial, train number, pulse index (R164). -/
def pulseBytes (p : Pulse) : List Byte := u32 p.serial.toNat ++ u8 p.train.toNat ++ u8 p.index

/-- The serial of the next firing and the pulses fired so far, while a train is in progress (R164). -/
def InjState.progress : InjState → List Byte
  | .disarmed => []
  | .armed => []
  | .delaying next => u32 next.toNat ++ u8 0
  | .firing next fired => u32 next.toNat ++ u8 fired

/-- Take new train settings (R164). -/
def Injector.configure (t : TrainSettings) (i : Injector) : Injector :=
  { i with mask := t.mask, amplitude := t.amplitude, delay := t.delay, count := t.count, spacing := t.spacing,
           mode := t.mode }

/-- injs (R164): writes the train settings, or reads them, the train in progress and the pending list. -/
def injsBody (r : Request) (s : State) : State :=
  match r.payload with
  | [] =>
    answerOk r
      (trainBytes s.inj.settings ++ u8 s.inj.state.code ++ u8 s.inj.train.toNat ++ s.inj.state.progress
        ++ u8 s.inj.pending.length ++ s.inj.pending.flatMap pulseBytes) s
  | [m1, m0, a1, a0, d, c, sp, mo] =>
    if s.inj.state ≠ .disarmed then refuse r .busy s
    else
      match readTrain m1 m0 a1 a0 d c sp mo with
      | none => refuse r .badArg s
      | some t => answerOk r (trainBytes t) (s.mapInj (Injector.configure t))
  | _ => refuse r .badLen s

/-- Change the injector state. -/
def setInjState (x : InjState) (s : State) : State := s.mapInj fun i => { i with state := x }

/-- inja (R165): arms the injector. -/
def injaBody (r : Request) (s : State) : State :=
  match r.payload with
  | [] =>
    if s.clk.state ≠ .locked then refuse r .badState s
    else
      let s1 := if s.inj.state = .disarmed then setInjState .armed s else s
      answerOk r (u8 s1.inj.state.code) s1
  | _ => refuse r .badLen s

/-- The pulses a train in progress has fired (R163). -/
def InjState.fired : InjState → Nat
  | .disarmed => 0
  | .armed => 0
  | .delaying _ => 0
  | .firing _ fired => fired

/-- injd (R165): disarms the injector, abandoning any train in progress. -/
def injdBody (r : Request) (s : State) : State :=
  match r.payload with
  | [] => answerOk r (u8 s.inj.state.fired) (setInjState .disarmed s)
  | _ => refuse r .badLen s

/-! ## Requests and firings -/

/-- A request that starts a train advances the train number and enters DELAYING, the first pulse due at `first` (R166). -/
def startTrain (first : Serial) (s : State) : State :=
  s.mapInj fun i => { i with train := i.train + 1, state := .delaying first }

/-- injf (R166, R167): requests a train; its request crossing is the next crossing arrival. -/
def injfBody (r : Request) (s : State) : State :=
  match r.payload with
  | [] =>
    match s.inj.state with
    | .disarmed => refuse r .badState s
    | .armed =>
      let first := s.timing.serial + 1 + BitVec.ofNat 32 s.inj.delay
      let s1 := startTrain first s
      answerOk r (u8 s1.inj.train.toNat ++ u32 first.toNat) s1
    | .delaying _ => refuse r .busy s
    | .firing _ _ => refuse r .busy s
  | _ => refuse r .badLen s

/-- Each masked channel's INJ count is set to 4·S (R9, R168). -/
def markInjected (mask : ChanMask) (s : State) : State :=
  s.mapPipe fun p =>
    { p with chans := tab fun c => if named mask c then { p.chans[c] with injCount := 4 * s.clk.s } else p.chans[c] }

/-- The state of the injector after a firing at serial `now` that brings the pulses fired to `fired` (R168). -/
def afterFiring (i : Injector) (now : Serial) (fired : Nat) : InjState :=
  if fired < i.count then .firing (now + BitVec.ofNat 32 i.spacing) fired
  else
    match i.mode with
    | .repeating => .armed
    | .oneShot => .disarmed

/-- A firing at the serial of the current crossing, `k` pulses of the train having been fired before (R168). -/
def firePulse (k : Nat) (s : State) : State :=
  let now := s.timing.serial
  let full := decide (Config.maxPulses ≤ s.inj.pending.length)
  let rec_ : Pulse := { serial := now, train := s.inj.train, index := k }
  let s1 := (markInjected s.inj.mask s).mapInj fun i =>
    { i with driven := i.driven ++ [{ serial := now, mask := i.mask, amplitude := i.amplitude }],
             pending := if full then i.pending else i.pending ++ [rec_],
             state := afterFiring i now (k + 1) }
  occurIf full .calListFull none s1

/-- A crossing arrival fires the pulse that is due at the serial it brings (R167, R168). -/
def fireDue (s : State) : State :=
  match s.inj.state with
  | .disarmed => s
  | .armed => s
  | .delaying next => if next = s.timing.serial then firePulse 0 s else s
  | .firing next fired => if next = s.timing.serial then firePulse fired s else s

/-- A PULSEREQ, judged against the injector state as it stood before the frame's crossing arrival (R166, R167). With D = 0
the first pulse fires in the same event. -/
def pulseRequest (before : InjState) (s : State) : State :=
  match before with
  | .disarmed => s
  | .armed =>
    let s1 := startTrain (s.timing.serial + BitVec.ofNat 32 s.inj.delay) s
    if s.inj.delay = 0 then firePulse 0 s1 else s1
  | .delaying _ => occur .calOverlap none s
  | .firing _ _ => occur .calOverlap none s

/-! ## The pending pulse list -/

/-- How many crossings the reference serial lies behind an accept: L/S of the start copy (R55, R171). -/
def lookBack (a : Acquisition) : Serial := BitVec.ofNat 32 (a.startL / a.startS)

/-- A pulse record is expired when it lies before s − L/S, for the serial s of the crossing arrival (R171). -/
def expired (back now : Serial) (p : Pulse) : Bool :=
  let d := (now - back - p.serial).toNat
  decide (1 ≤ d ∧ d ≤ 2 ^ 31)

/-- Each expired record leaves the list, CAL_MISSED latches and MISSED counts, once for each (R171, R173). -/
def expirePulses (s : State) : State :=
  let gone := s.inj.pending.filter (expired (lookBack s.acq) s.timing.serial)
  let s1 := s.mapInj fun i => { i with pending := i.pending.filter fun p => !expired (lookBack s.acq) s.timing.serial p }
  gone.foldl (fun s _ => occur .calMissed none (tally (fun c => { c with missed := c.missed + 1 }) s)) s1

/-- A pulse lies in the span of n crossings from r on (R66, R170). -/
def inSpan (r : Serial) (n : Nat) (p : Pulse) : Bool := decide ((p.serial - r).toNat < n)

/-- The pulse index of the oldest pulse an accept retires, if it retires one (R66, R170). -/
def matchedPulse (r : Serial) (n : Nat) (ps : List Pulse) : Option Nat := (ps.find? (inSpan r n)).map Pulse.index

/-- The pulses an accept retires leave the list (R170). -/
def retirePulses (r : Serial) (n : Nat) (s : State) : State :=
  s.mapInj fun i => { i with pending := i.pending.filter fun p => !inSpan r n p }

end Sys2Proof.Machine
end

