-- ==== Sys2Proof/Machine/AcceptArrival.lean ====
section
/-!
DEFINITION. Chapter 4: the commands rule and busy (R57, R72), and the accept arrival: its numbers, the trigger rule, record or
gap, the window capture, pulse matching, the throttle and the high-water marks (R55 to R74), and the record start that may
follow in the same event (R141).
-/

namespace Sys2Proof.Machine

/-! ## rule and busy -/

/-- The three trigger-rule settings as bytes (R57). -/
def ruleBytes (k w : Nat) (d : Bool) : List Byte := u8 k ++ u16 w ++ u8 (flagCode d)

/-- rule (R57): writes or reads the trigger-rule settings, emptying the history on a write. -/
def ruleBody (r : Request) (s : State) : State :=
  match r.payload with
  | [] => answerOk r (ruleBytes s.aq.ruleK s.aq.ruleW s.aq.degrade ++ u8 s.aq.history.length) s
  | [k, w1, w0, d] =>
    match inRange 0 8 k.toNat, inRange 1 65535 (be16 w1 w0), readFlag d with
    | some k, some w, some d =>
      answerOk r (ruleBytes k w d) (s.mapAq fun q => { q with ruleK := k, ruleW := w, degrade := d, history := [] })
    | _, _, _ => refuse r .badArg s
  | _ => refuse r .badLen s

/-- Set the throttle against the slots in use after a busy write (R72). -/
def throttleAgainst (s : State) : State :=
  if s.aq.throttle then throttleRelax s else if s.aq.hi ≤ slotsInUse s then throttleOn s else s

/-- busy (R72): writes or reads the throttle thresholds and reconsiders the throttle. The reply to a write carries hi, lo and
the throttle state, as the rule lists them (assumption log 8). -/
def busyBody (r : Request) (s : State) : State :=
  match r.payload with
  | [] => answerOk r (u8 s.aq.hi ++ u8 s.aq.lo ++ u8 (flagCode s.aq.throttle) ++ u8 (slotsInUse s)) s
  | [h, l] =>
    match inRange 1 16 h.toNat with
    | none => refuse r .badArg s
    | some hi =>
      if l.toNat < hi then
        let s1 := throttleAgainst (s.mapAq fun q => { q with hi := hi, lo := l.toNat })
        answerOk r (u8 s1.aq.hi ++ u8 s1.aq.lo ++ u8 (flagCode s1.aq.throttle)) s1
      else refuse r .badArg s
  | _ => refuse r .badLen s

/-! ## The numbers of an accept and the trigger rule -/

/-- The accept's crossing: (n − L/S) mod turn length (R55). -/
def acceptCrossing (s : State) : Nat :=
  (((s.timing.counter : Int) - (s.acq.startL / s.acq.startS : Nat)) % (s.timing.turnLength : Int)).toNat

/-- The accept's reference serial: (s − L/S) mod 2^32 (R55). -/
def acceptRef (s : State) : Serial := s.timing.serial - lookBack s.acq

/-- The accept is a rule violation (R56). -/
def ruleViolated (q : AcceptQueue) (now : Serial) : Bool :=
  match q.history with
  | [] => false
  | oldest :: _ => decide (1 ≤ q.ruleK ∧ q.history.length = q.ruleK ∧ (now - oldest).toNat < q.ruleW)

/-- The history gains a serial; if it held K already, its oldest is first removed (R56). With K = 0 it stays empty. -/
def ruleHistory (q : AcceptQueue) (now : Serial) : List Serial :=
  if q.ruleK = 0 then q.history
  else (if q.ruleK ≤ q.history.length then q.history.drop 1 else q.history) ++ [now]

/-- The rule check and the history update, made for every accept (R56). -/
def ruleCheck (e : EventNum) (s : State) : State :=
  let s1 :=
    if ruleViolated s.aq s.timing.serial then
      tally (fun c => { c with ruleV := c.ruleV + 1 }) (occur .ruleViol (some e) s)
    else s
  s1.mapAq fun q => { q with history := ruleHistory q s.timing.serial }

/-! ## Gaps and records -/

/-- The accept becomes a gap: the gap counter and ACC_NOREC count it (R58, R59). -/
def makeGap (s : State) : State :=
  tally (fun c => { c with accNoRec := c.accNoRec + 1 }) (s.mapAq fun q => { q with gap := bump 65535 q.gap })

/-- What kind of record the accept becomes; `none` for a gap in STANDBY and DRAINING (R59, R60). -/
def recordKind (violation : Bool) (s : State) : Option RecordKind :=
  match s.acq.state with
  | .standby => none
  | .draining => none
  | .priming => some (.nosnap .unprimed)
  | .suspended => some (.nosnap .suspended)
  | .running =>
    if violation && s.aq.degrade then some (.nosnap .rule)
    else
      match lowestFree s with
      | some k => some (.full k)
      | none => some (.nosnap .noslot)

/-- What a snapshot slot captures of one channel (R19, R64). -/
def captureChan (s : State) (c : Chan) : ChanSnap :=
  { window := ringWindow s.pipe.chans[c].ring s.pipe.w s.acq.startL s.acq.startN,
    held := s.pipe.chans[c].frozen,
    stale := decide (s.pipe.chans[c].refill < s.acq.startL),
    disabled := !s.front.recs[c].enable,
    pedestal := ⟨s.ped.chans[c].gains.hg.p, s.ped.chans[c].gains.lg.p⟩ }

/-- The capture of every channel (R64). -/
def capture (s : State) : Snapshot := tab fun c => captureChan s c

/-- The crossing span of a window: ⌈N/S⌉ of the start copy (R66). -/
def windowSpan (a : Acquisition) : Nat := ceilDiv a.startN a.startS

/-- The record made of an accept (R61). -/
def newRecord (e : EventNum) (violation : Bool) (kind : RecordKind) (s : State) : Record :=
  { event := e, crossing := acceptCrossing s, refSerial := acceptRef s, unaligned := !s.timing.aligned, rule := violation,
    gap := s.aq.gap, kind := kind, pulse := matchedPulse (acceptRef s) (windowSpan s.acq) s.inj.pending }

/-- The counters and the condition of a record made: REC_MADE, NOSNAPS, NOSLOT (R60, R74). -/
def recordOccurrences (e : EventNum) (kind : RecordKind) (s : State) : State :=
  let s1 := tally (fun c => { c with recMade := c.recMade + 1 }) s
  match kind with
  | .full _ => s1
  | .nosnap reason =>
    occurIf (decide (reason = .noslot)) .noSlot (some e) (tally (fun c => { c with noSnaps := c.noSnaps + 1 }) s1)

/-- Append a record at the tail: the gap counter is taken over, the slot is filled if the record has one, and the
high-water marks are raised (R62, R63, R64, R73). -/
def appendRecord (rec : Record) (snap : Snapshot) (s : State) : State :=
  let s1 := s.mapAq fun q =>
    { q with records := q.records ++ [rec], gap := 0, recordMark := max q.recordMark (q.records.length + 1) }
  match rec.kind with
  | .nosnap _ => s1
  | .full k =>
    let s2 := s1.mapAq fun q => { q with snaps := put q.snaps k (some snap) }
    let s3 := s2.mapAq fun q => { q with slotMark := max q.slotMark (slotsInUse s2) }
    if s3.aq.hi ≤ slotsInUse s3 then throttleOn s3 else s3

/-- The accept becomes a record (R60 to R66); the record start that may follow is made in the same event (R141). -/
def makeRecord (e : EventNum) (violation : Bool) (kind : RecordKind) (s : State) : State :=
  let made := newRecord e violation kind s
  let s1 := retirePulses (acceptRef s) (windowSpan s.acq) (recordOccurrences e kind s)
  settleBuilder (appendRecord made (capture s) s1)

/-- Record or gap (R58 to R60). The check for a full list comes before the acquisition state is looked at. -/
def decideAccept (e : EventNum) (violation : Bool) (s : State) : State :=
  if Config.maxRecords ≤ s.aq.records.length then occur .aqOverflow (some e) (makeGap s)
  else
    match recordKind violation s with
    | none => makeGap s
    | some kind => makeRecord e violation kind s

/-- An accept arrival with event number e, at the crossing the Timing Receiver stands at (R55). RULE_VIOL has latched before
the record or gap is decided (assumption log 7). -/
def acceptArrival (e : EventNum) (s : State) : State :=
  let s1 := tally (fun c => { c with accSeen := c.accSeen + 1 }) s
  decideAccept e (ruleViolated s.aq s.timing.serial) (ruleCheck e s1)

end Sys2Proof.Machine
end

