-- ==== Sys2Proof/Machine/Pedestal.lean ====
section
/-!
DEFINITION. Chapter 5, sections 5.1 to 5.3: the Pedestal Tracker's commands trks and pedl (R76, R77), and what one counted
sample does to a channel-gain: the block, the update of P and the short trim step (R78 to R82).
-/

namespace Sys2Proof.Machine

/-! ## trks and pedl -/

/-- The readback of one gain of a channel: P, σ, the accumulator's sample count and the blank flag (R76). -/
def gainTrackBytes (g : GainTrack) : List Byte := u16 g.p ++ u8 g.sigma ++ u16 g.count ++ u8 (flagCode g.blank)

/-- Empty an accumulator (R76). -/
def GainTrack.emptied (g : GainTrack) : GainTrack := { g with count := 0, sum := 0 }

/-- A channel takes seven new settings; both its accumulators are emptied (R76). -/
def ChanTrack.configure (t : TrackSettings) (c : ChanTrack) : ChanTrack :=
  { c with tracking := t.tracking, autoTrim := t.autoTrim, target := t.target, hysteresis := t.hysteresis,
           blockExp := t.blockExp, updateExp := t.updateExp, gains := ⟨c.gains.hg.emptied, c.gains.lg.emptied⟩ }

/-- trks (R76): writes tracking settings for the masked channels, or reads one channel's settings. -/
def trksBody (r : Request) (s : State) : State :=
  match r.payload with
  | [c] =>
    match readChan c with
    | none => refuse r .badArg s
    | some c =>
      let ch := s.ped.chans[c]
      answerOk r (trackSettingBytes ch.settings ++ gainTrackBytes ch.gains.hg ++ gainTrackBytes ch.gains.lg) s
  | [m1, m0, te, ae, h1, h0, l1, l0, hy, m, k] =>
    match readTrackSettings te ae h1 h0 l1 l0 hy m k with
    | none => refuse r .badArg s
    | some t =>
      let mask := readMask m1 m0
      answerOk r (maskBytes mask ++ trackSettingBytes t)
        (s.mapPed fun p =>
          { p with chans := tab fun c => if named mask c then p.chans[c].configure t else p.chans[c] })
  | _ => refuse r .badLen s

/-- Set P of the selected gains of a channel. -/
def ChanTrack.load (sel : PerGain Bool) (p : Nat) (c : ChanTrack) : ChanTrack :=
  { c with gains := ⟨if sel.hg then { c.gains.hg with p := p } else c.gains.hg,
                     if sel.lg then { c.gains.lg with p := p } else c.gains.lg⟩ }

/-- Set P of the selected gains of the named channels (R77). -/
def loadPedestals (mask : ChanMask) (sel : PerGain Bool) (p : Nat) (s : State) : State :=
  s.mapPed fun q => { q with chans := tab fun c => if named mask c then q.chans[c].load sel p else q.chans[c] }

/-- pedl (R77): loads pedestal estimates, clamped with PED_RANGE, or reads all 32 of them. -/
def pedlBody (r : Request) (s : State) : State :=
  match r.payload with
  | [] => answerOk r (allChans.flatMap fun c => u16 s.ped.chans[c].gains.hg.p ++ u16 s.ped.chans[c].gains.lg.p) s
  | [m1, m0, g, v1, v0] =>
    match readGainSel g with
    | none => refuse r .badArg s
    | some sel =>
      let v := be16 v1 v0
      let p := min v Config.pedestalTop
      let s1 := loadPedestals (readMask m1 m0) sel p s
      if Config.pedestalTop < v then answer r.tag .clamped (u16 p) (occur .pedRange none s1) else answerOk r (u16 p) s1
  | _ => refuse r .badLen s

/-! ## One counted sample of one channel-gain -/

/-- P clamped to its range, and whether the clamp changed it (R80, R81). -/
def clampPed (x : Int) : Nat × Bool :=
  let y := clampTo 0 Config.pedestalTop x
  (y.toNat, decide (y ≠ x))

/-- The mean of a sum of 2^m codes, in sixteenth-codes (R79, R85, R95). -/
def meanOf (m : Nat) (sum : Nat) : Nat := (roundBy m (16 * (sum : Int))).toNat

/-- P moves towards the block mean M by the difference rounded by k (R80). -/
def updatePed (k p m : Nat) : Nat × Bool := clampPed ((p : Int) + roundBy k ((m : Int) - (p : Int)))

/-- What one sample leaves of a channel-gain: the tracker's state, the trim DAC, whether a short trim step was taken, and
the conditions that occur. -/
structure GainResult where
  track : GainTrack
  dac : Nat
  stepped : Bool
  conds : List Cond
  deriving DecidableEq, Repr

/-- The PED_RANGE occurrence of a clamp that changed P. -/
def rangeCond (changed : Bool) : List Cond := if changed then [.pedRange] else []

/-- The short trim check (R81, R82), made on P after the update. -/
def trimCheck (target h : Nat) (g : GainTrack) (dac : Nat) : GainResult :=
  if (16 * ((target : Int) + h) : Int) < g.p then
    if 0 < dac then
      let (p, ch) := clampPed ((g.p : Int) - g.sigma)
      { track := { g with p := p, blank := true }, dac := dac - 1, stepped := true, conds := rangeCond ch }
    else { track := g, dac := dac, stepped := false, conds := [.trimLimit] }
  else if (g.p : Int) < 16 * ((target : Int) - h) then
    if dac < 255 then
      let (p, ch) := clampPed ((g.p : Int) + g.sigma)
      { track := { g with p := p, blank := true }, dac := dac + 1, stepped := true, conds := rangeCond ch }
    else { track := g, dac := dac, stepped := false, conds := [.trimLimit] }
  else { track := g, dac := dac, stepped := false, conds := [] }

/-- A block of sum `sum` completes (R79): it is discarded if blanked; otherwise P is updated and, with auto-trim on, the trim
check is made. -/
def blockComplete (c : ChanTrack) (target sum : Nat) (g : GainTrack) (dac : Nat) : GainResult :=
  let g0 := { g with count := 0, sum := 0 }
  if g.blank then { track := { g0 with blank := false }, dac := dac, stepped := false, conds := [] }
  else
    let (p, ch) := updatePed c.updateExp g.p (meanOf c.blockExp sum)
    let g1 := { g0 with p := p }
    if c.autoTrim then
      let res := trimCheck target c.hysteresis g1 dac
      { res with conds := rangeCond ch ++ res.conds }
    else { track := g1, dac := dac, stepped := false, conds := rangeCond ch }

/-- One counted sample of one channel-gain (R79). -/
def countSample (c : ChanTrack) (target : Nat) (code : Code) (g : GainTrack) (dac : Nat) : GainResult :=
  let sum := g.sum + code.toNat
  if 2 ^ c.blockExp ≤ g.count + 1 then blockComplete c target sum g dac
  else { track := { g with count := g.count + 1, sum := sum }, dac := dac, stepped := false, conds := [] }

/-! ## One sample arrival at the tracker -/

/-- A written slot counts for the tracker (R78). -/
def slotCounts (c : ChanTrack) (quiet : Bool) (x : Slot) : Bool :=
  quiet && c.tracking && !x.clipH && !x.clipL && !x.inj && !x.trimStep && !x.disabled

/-- What one sample arrival leaves of a channel at the tracker. -/
structure ChanResult where
  track : ChanTrack
  dac : PerGain Nat
  stepped : Bool
  conds : List Cond
  deriving DecidableEq, Repr

/-- A slot that counts gives its HG code to the HG accumulator and its LG code to the LG accumulator (R78). -/
def trackSlot (c : ChanTrack) (x : Slot) (dac : PerGain Nat) : ChanResult :=
  let h := countSample c c.target.hg x.hg c.gains.hg dac.hg
  let l := countSample c c.target.lg x.lg c.gains.lg dac.lg
  { track := { c with gains := ⟨h.track, l.track⟩ }, dac := ⟨h.dac, l.dac⟩, stepped := h.stepped || l.stepped,
    conds := h.conds ++ l.conds }

/-- One sample arrival at a channel of the tracker: `slot` is the slot written for it, if one is written (R78). -/
def trackChan (c : ChanTrack) (quiet : Bool) (slot : Option Slot) (dac : PerGain Nat) : ChanResult :=
  match slot with
  | none => { track := c, dac := dac, stepped := false, conds := [] }
  | some x =>
    if slotCounts c quiet x then trackSlot c x dac else { track := c, dac := dac, stepped := false, conds := [] }

/-- The counted slot completes a block of one of the channel's gains (R79). -/
def completesBlock (c : ChanTrack) (quiet : Bool) (slot : Option Slot) : Bool :=
  match slot with
  | none => false
  | some x =>
    slotCounts c quiet x
      && (decide (2 ^ c.blockExp ≤ c.gains.hg.count + 1) || decide (2 ^ c.blockExp ≤ c.gains.lg.count + 1))

end Sys2Proof.Machine
end

