-- ==== Sys2Proof/Machine/TrimEngine.lean ====
section
/-!
DEFINITION. Chapter 5, sections 5.4 and 5.5: the Trim Engine's commands trml, trmr, tren, trst, trms and trex, the rounds of a
long trim, its abort, and manual trim mode (R83 to R97).
-/

namespace Sys2Proof.Machine

/-! ## Per channel-gain tables -/

/-- Set one channel-gain's offset trim DAC (R5). -/
def setDac (c : Chan) (g : Gain) (v : Nat) (s : State) : State :=
  s.mapFront fun f => { f with dacs := put f.dacs c (f.dacs[c].put g v) }

/-- Set one channel-gain's pedestal estimate. -/
def setPed (c : Chan) (g : Gain) (p : Nat) (s : State) : State :=
  s.mapPed fun q =>
    { q with chans := put q.chans c { q.chans[c] with
        gains := q.chans[c].gains.put g { q.chans[c].gains.get g with p := p } } }

/-! ## The search of a long trim -/

/-- The search rounds of a channel-gain: eight over the whole range, five over a band (R86, R87). -/
def Search.rounds (q : Search) : Nat := if q.whole then 8 else 5

/-- The trial value of a round, counted from 0 (R86 to R88): a bit of the search, then v, then v + 8, or v − 8 above 247. -/
def Search.trial (q : Search) (round : Nat) : Nat :=
  if round < q.rounds then q.value + 2 ^ (q.rounds - 1 - round)
  else if round = q.rounds then q.value
  else if 247 < q.value then q.value - 8
  else q.value + 8

/-- The base of a band search: the DAC value minus 16, clamped to 0..224 (R87). -/
def bandBase (dac : Nat) : Nat := min (dac - 16) 224

/-- A channel-gain that takes part begins its search (R84, R86, R87). -/
def beginSearch (info : TrimInfo) (dac target h : Nat) : Search :=
  { whole := info.first, value := if info.first then 0 else bandBase dac, target := target, hysteresis := h, meanV := 0,
    sum := 0 }

/-- What the completion of a round leaves of a channel-gain: its search, if it goes on, its DAC, P and σ, its first-trim flag
and status, and the conditions that occur (R85 to R88). -/
structure RoundResult where
  search : Option Search
  dac : Nat
  p : Nat
  sigma : Nat
  info : TrimInfo
  conds : List Cond
  deriving DecidableEq, Repr

/-- The difference of the two finishing rounds: the mean at the higher DAC value less the mean at the lower one (R88). -/
def slopeDifference (q : Search) (mean : Nat) : Int :=
  if 247 < q.value then (q.meanV : Int) - mean else (mean : Int) - q.meanV

/-- LIMIT (R88): v = 0 with the mean at v above 16·target, or v = 255 with the mean at v below 16·(target − h). -/
def atLimit (q : Search) : Bool :=
  decide (q.value = 0 ∧ 16 * q.target < q.meanV)
    || decide (q.value = 255 ∧ (q.meanV : Int) < 16 * ((q.target : Int) - q.hysteresis))

/-- The second finishing round completes the channel-gain: P, σ, the status and its condition, the DAC back at v (R88). P takes
the mean of the first finishing round here, at the finish, over any value loaded meanwhile (R77, assumption log 30). -/
def finishSearch (q : Search) (mean sigma : Nat) : RoundResult :=
  let diff := slopeDifference q mean
  if diff ≤ 0 then
    { search := none, dac := q.value, p := q.meanV, sigma := sigma, info := { first := false, status := .slopeBad },
      conds := [.trimSlope] }
  else
    { search := none, dac := q.value, p := q.meanV, sigma := (clampTo 1 255 (roundBy 3 diff)).toNat,
      info := { first := false, status := if atLimit q then .limit else .ok },
      conds := if atLimit q then [.trimLimit] else [] }

/-- The completion of a round for a channel-gain still in progress (R85 to R88). Until the finish P stays, so that an abort
leaves it as it is (R90). -/
def roundOf (q : Search) (round p sigma : Nat) (info : TrimInfo) : RoundResult :=
  let mean := meanOf 8 q.sum
  if round < q.rounds then
    let q' := { q with value := if mean ≤ 16 * q.target then q.trial round else q.value, sum := 0 }
    { search := some q', dac := q'.trial (round + 1), p := p, sigma := sigma, info := info, conds := [] }
  else if round = q.rounds then
    let q' := { q with meanV := mean, sum := 0 }
    { search := some q', dac := q'.trial (round + 1), p := p, sigma := sigma, info := info, conds := [] }
  else finishSearch q mean sigma

/-- A channel-gain at the completion of a round; one that takes no part keeps everything. -/
def roundResult (q : Option Search) (round dac p sigma : Nat) (info : TrimInfo) : RoundResult :=
  match q with
  | none => { search := none, dac := dac, p := p, sigma := sigma, info := info, conds := [] }
  | some q => roundOf q round p sigma info

/-- The result of a round for channel c and gain g. -/
def roundAt (t : LongTrim) (s : State) (c : Chan) (g : Gain) : RoundResult :=
  roundResult (t.searches[c].get g) t.round (s.front.dacs[c].get g) (s.ped.chans[c].gains.get g).p
    (s.ped.chans[c].gains.get g).sigma (s.trim.gains[c].get g)

/-- No channel-gain is still in progress. -/
def noSearch (v : Vector (PerGain (Option Search)) 16) : Bool :=
  allChans.all fun c => v[c].hg.isNone && v[c].lg.isNone

/-- The completion of a long-trim round: each channel-gain takes its mean and its decision, and the next round begins, or
the engine enters IDLE when no channel-gain is left (R85 to R89). -/
def completeRound (t : LongTrim) (s : State) : State :=
  let res : Vector (PerGain RoundResult) 16 := tab fun c => ⟨roundAt t s c .hg, roundAt t s c .lg⟩
  let searches : Vector (PerGain (Option Search)) 16 := tab fun c => ⟨res[c].hg.search, res[c].lg.search⟩
  let s1 := s.mapFront fun f => { f with dacs := tab fun c => ⟨res[c].hg.dac, res[c].lg.dac⟩ }
  let s2 := s1.mapPed fun q =>
    { q with chans := tab fun c => { q.chans[c] with
        gains := ⟨{ q.chans[c].gains.hg with p := res[c].hg.p, sigma := res[c].hg.sigma },
                  { q.chans[c].gains.lg with p := res[c].lg.p, sigma := res[c].lg.sigma }⟩ } }
  let s3 := s2.mapTrim fun _ =>
    { engine := if noSearch searches then .idle else .long { round := t.round + 1, arrivals := 0, searches := searches },
      gains := tab fun c => ⟨res[c].hg.info, res[c].lg.info⟩ }
  occurAll (allChans.flatMap fun c => res[c].hg.conds ++ res[c].lg.conds) s3

/-- The sample arrivals of a round: 64 of settle and 256 that are summed (R85). -/
def roundArrivals : Nat := 320

/-- Add a sample to a channel-gain in progress. -/
def addSample (summed : Bool) (n : Nat) (q : Option Search) : Option Search :=
  q.map fun q => if summed then { q with sum := q.sum + n } else q

/-- The code the Front End delivers of channel c: none from a disabled channel (R2). -/
def deliveredCode (s : State) (x : Samples) (c : Chan) (g : Gain) : Nat :=
  if s.front.recs[c].enable then (x[c].get g).toNat else 0

/-- One sample arrival in a long trim (R85). -/
def longSample (t : LongTrim) (x : Samples) (s : State) : State :=
  let n := t.arrivals + 1
  let summed := decide (64 < n)
  let t' : LongTrim :=
    { t with arrivals := n,
             searches := tab fun c =>
               ⟨addSample summed (deliveredCode s x c .hg) t.searches[c].hg,
                addSample summed (deliveredCode s x c .lg) t.searches[c].lg⟩ }
  if n < roundArrivals then s.mapTrim fun u => { u with engine := .long t' } else completeRound t' s

/-- The abort of a long trim: each channel-gain still in progress keeps its DAC, P, σ and first-trim flag and takes status
ABORTED; TRIM_ABORT latches and the engine enters IDLE (R90). -/
def abortLong (t : LongTrim) (s : State) : State :=
  let mark := fun (q : Option Search) (i : TrimInfo) => if q.isSome then { i with status := .aborted } else i
  occur .trimAbort none
    (s.mapTrim fun u =>
      { engine := .idle,
        gains := tab fun c => ⟨mark t.searches[c].hg u.gains[c].hg, mark t.searches[c].lg u.gains[c].lg⟩ })

/-! ## trml and trmr -/

/-- A channel-gain takes part in a trim when its channel is named and its gain selected (R84). -/
def startSearch (s : State) (mask : ChanMask) (sel : PerGain Bool) (c : Chan) (g : Gain) : Option Search :=
  if named mask c && sel.get g then
    some (beginSearch (s.trim.gains[c].get g) (s.front.dacs[c].get g) (s.ped.chans[c].target.get g)
      s.ped.chans[c].hysteresis)
  else none

/-- The DAC of a channel-gain at the beginning of a round: its trial value while it is in progress (R85). -/
def trialDac (q : Option Search) (round dac : Nat) : Nat :=
  match q with
  | none => dac
  | some q => q.trial round

/-- A long trim begins: the copies are taken and the first trial values written (R84, R85). -/
def beginLong (mask : ChanMask) (sel : PerGain Bool) (s : State) : State :=
  let searches : Vector (PerGain (Option Search)) 16 :=
    tab fun c => ⟨startSearch s mask sel c .hg, startSearch s mask sel c .lg⟩
  (s.mapTrim fun u => { u with engine := .long { round := 0, arrivals := 0, searches := searches } }).mapFront fun f =>
    { f with dacs := tab fun c =>
        ⟨trialDac searches[c].hg 0 f.dacs[c].hg, trialDac searches[c].lg 0 f.dacs[c].lg⟩ }

/-- trml (R84): starts a long trim of the masked channel-gains. -/
def trmlBody (r : Request) (s : State) : State :=
  match r.payload with
  | [m1, m0, g] =>
    if inLong s then refuse r .busy s
    else if !inStandby s then refuse r .badState s
    else if s.clk.state ≠ .locked then refuse r .badState s
    else
      let mask := readMask m1 m0
      match readGainSel g with
      | none => refuse r .badArg s
      | some sel =>
        if mask = 0 ∨ (namedChans mask).any (fun c => !s.front.recs[c].enable) then refuse r .badArg s
        else answerOk r (maskBytes mask ++ u8 g.toNat) (beginLong mask sel s)
  | _ => refuse r .badLen s

/-- The trim results of one channel-gain: DAC, σ, P, status and first-trim flag (R91). -/
def trimResultBytes (s : State) (c : Chan) (g : Gain) : List Byte :=
  u8 (s.front.dacs[c].get g) ++ u8 (s.ped.chans[c].gains.get g).sigma ++ u16 (s.ped.chans[c].gains.get g).p
    ++ u8 (s.trim.gains[c].get g).status.code ++ u8 (flagCode (s.trim.gains[c].get g).first)

/-- The reply of trmr for a mask (R91). -/
def trmrReply (m : ChanMask) (s : State) : List Byte :=
  u8 s.trim.engine.code ++ (namedChans m).flatMap fun c => trimResultBytes s c .hg ++ trimResultBytes s c .lg

/-- trmr (R91): reads the trim results. -/
def trmrBody (r : Request) (s : State) : State :=
  match r.payload with
  | [] => answerOk r (trmrReply (BitVec.allOnes 16) s) s
  | [m1, m0] => answerOk r (trmrReply (readMask m1 m0) s) s
  | _ => refuse r .badLen s

/-! ## Manual trim mode -/

/-- Replace the manual-mode data. -/
def setManual (m : ManualTrim) (s : State) : State := s.mapTrim fun u => { u with engine := .manual m }

/-- tren (R92): enters manual trim mode for one channel-gain, with no valid last mean; the value it holds while it is not valid
is the model's choice (assumption log 34). DESIGN CHOICE (assumption log 35): the reply carries the channel-gain as two bytes,
the channel and then the gain, HG 0 and LG 1. -/
def trenBody (r : Request) (s : State) : State :=
  match r.payload with
  | [c, g] =>
    if !inStandby s then refuse r .badState s
    else if inLong s then refuse r .busy s
    else
      match readChan c, readGain g with
      | some c, some g =>
        if s.front.recs[c].enable then
          answerOk r (u8 c.val ++ u8 (gainCode g) ++ u8 (s.front.dacs[c].get g) ++ u16 (s.ped.chans[c].gains.get g).p)
            (setManual { chan := c, gain := g, settle := 0, lastMean := 0, valid := false, measuring := none } s)
        else refuse r .badArg s
      | some _, none => refuse r .badArg s
      | none, some _ => refuse r .badArg s
      | none, none => refuse r .badArg s
  | _ => refuse r .badLen s

/-- trst (R94): writes the selected DAC and starts a 64-sample settle. Outside manual trim mode there is no selected
channel-gain, and the request is refused BADSTATE (assumption log 11). -/
def trstBody (r : Request) (s : State) : State :=
  match r.payload with
  | [v] =>
    match s.trim.engine with
    | .manual m =>
      answerOk r (u8 v.toNat) (setManual { m with settle := 64, valid := false } (setDac m.chan m.gain v.toNat s))
    | .idle => refuse r .badState s
    | .long _ => refuse r .badState s
  | _ => refuse r .badLen s

/-- trms (R95): starts a baseline measurement; its reply waits for the measurement. Outside manual trim mode it is refused
BADSTATE (assumption log 11). -/
def trmsBody (r : Request) (s : State) : State :=
  match r.payload with
  | [] =>
    match s.trim.engine with
    | .manual m =>
      if s.clk.state ≠ .locked then refuse r .badState s
      else
        (setManual { m with measuring := some { count := 0, sum := 0 } } s).mapCtl fun c =>
          { c with executing := .trms r.tag }
    | .idle => refuse r .badState s
    | .long _ => refuse r .badState s
  | _ => refuse r .badLen s

/-- trex (R97): leaves manual trim mode, loading P from a valid last mean. Outside manual trim mode it is refused BADSTATE
(assumption log 11). DESIGN CHOICE: the reply carries the channel-gain as two bytes, as that of tren (assumption log 35), and whether P was
loaded as one byte, 1 for yes and 0 for no (assumption log 37). -/
def trexBody (r : Request) (s : State) : State :=
  match r.payload with
  | [] =>
    match s.trim.engine with
    | .manual m =>
      let s1 := s.mapTrim fun u => { u with engine := .idle }
      let s2 := if m.valid then setPed m.chan m.gain m.lastMean s1 else s1
      answerOk r
        (u8 m.chan.val ++ u8 (gainCode m.gain) ++ u8 (s.front.dacs[m.chan].get m.gain)
          ++ u16 (s2.ped.chans[m.chan].gains.get m.gain).p ++ u8 (flagCode m.valid)) s2
    | .idle => refuse r .badState s
    | .long _ => refuse r .badState s
  | _ => refuse r .badLen s

/-- A trms that is in execution is answered (R95, R96). -/
def finishTrms (status : Status) (payload : List Byte) (s : State) : State :=
  match s.ctl.executing with
  | .trms tag => answer tag status payload s
  | .none => s
  | .rset _ _ => s
  | .cclr _ _ => s
  | .sending _ => s

/-- One sample arrival in manual trim mode (R94, R95): a settle count above 0 decreases; otherwise a measurement in progress
adds the sample, and at the 256th its mean is kept as valid and the reply is sent. DESIGN CHOICE (assumption log 35): the reply
carries the channel-gain as two bytes, as that of tren. -/
def manualSample (m : ManualTrim) (x : Samples) (s : State) : State :=
  if 0 < m.settle then setManual { m with settle := m.settle - 1 } s
  else
    match m.measuring with
    | none => s
    | some q =>
      let sum := q.sum + deliveredCode s x m.chan m.gain
      if q.count + 1 < 256 then setManual { m with measuring := some { count := q.count + 1, sum := sum } } s
      else
        let mean := meanOf 8 sum
        finishTrms .ok
          (u8 m.chan.val ++ u8 (gainCode m.gain) ++ u8 (s.front.dacs[m.chan].get m.gain) ++ u16 mean)
          (setManual { m with lastMean := mean, valid := true, measuring := none } s)

/-- One sample arrival at the Trim Engine. -/
def trimSample (x : Samples) (s : State) : State :=
  match s.trim.engine with
  | .idle => s
  | .long t => longSample t x s
  | .manual m => manualSample m x s

/-- What the clock's leaving LOCKED does at the Trim Engine (R90, R96): a long trim aborts; in manual trim mode the settle
count is set to 64 and a trms in progress is discarded and answered BADSTATE. -/
def trimDeparture (s : State) : State :=
  match s.trim.engine with
  | .idle => s
  | .long t => abortLong t s
  | .manual m =>
    let s1 := setManual { m with settle := 64, measuring := none } s
    if m.measuring.isSome then finishTrms .badState [] s1 else s1

end Sys2Proof.Machine
end

