-- ==== Sys2Proof/Machine/Pipeline.lean ====
section
/-!
DEFINITION. Chapter 1: the commands chan, pipe, frze, thaw and peek (R4, R15, R17, R18, R20) and the sample arrival, which
reaches the Sample Pipeline, the Pedestal Tracker, the Trim Engine and the Acquisition Controller (R2, R7 to R10, R44,
R78). When a sample arrival is one of the kinds that have a row of their own stands here too.
-/

namespace Sys2Proof.Machine

/-! ## Commands -/

/-- chan (R4): writes or reads one channel record. -/
def chanBody (r : Request) (s : State) : State :=
  match r.payload with
  | [c] =>
    match readChan c with
    | none => refuse r .badArg s
    | some c => answerOk r (chanRecBytes c s.front.recs[c]) s
  | [c, en, h1, h0, l1, l0, g1, g0, hs, ls] =>
    if !inStandby s then refuse r .badState s
    else if inLong s then refuse r .busy s
    else
      match readChan c, readChanRec en h1 h0 l1 l0 g1 g0 hs ls with
      | some c, some rec_ =>
        answerOk r (chanRecBytes c rec_) (s.mapFront fun f => { f with recs := put f.recs c rec_ })
      | some _, none => refuse r .badArg s
      | none, some _ => refuse r .badArg s
      | none, none => refuse r .badArg s
  | _ => refuse r .badLen s

/-- The applied latency: clamped to N..480, then raised by 1 with S = 2 and the clamped value odd (R15). -/
def appliedLatency (l n sPer : Nat) : Nat :=
  let c := if l < n then n else if 480 < l then 480 else l
  if sPer = 2 ∧ c % 2 = 1 then c + 1 else c

/-- pipe (R15): writes or reads the latency and window, clamping L. Of a write that meets both refusals, the model answers
BADSTATE (assumption log 32). -/
def pipeBody (r : Request) (s : State) : State :=
  match r.payload with
  | [] => answerOk r (u16 s.pipe.latency ++ u8 s.pipe.window) s
  | [l1, l0, n] =>
    if !inStandby s then refuse r .badState s
    else
      match inRange 3 16 n.toNat with
      | none => refuse r .badArg s
      | some n =>
        let l := appliedLatency (be16 l1 l0) n s.clk.s
        answer r.tag (if l = be16 l1 l0 then .ok else .clamped) (u16 l ++ u8 n)
          (s.mapPipe fun p => { p with latency := l, window := n })
  | _ => refuse r .badLen s

/-- The freeze mask as it stands (R17). -/
def freezeMask (s : State) : Nat := maskOf fun c => s.pipe.chans[c].frozen

/-- frze (R17): freezes the named channels, or reads the freeze mask and the refill counts. -/
def frzeBody (r : Request) (s : State) : State :=
  match r.payload with
  | [] => answerOk r (u16 (freezeMask s) ++ allChans.flatMap fun c => u16 s.pipe.chans[c].refill) s
  | [m1, m0] =>
    let m := readMask m1 m0
    let s1 := s.mapPipe fun p =>
      { p with chans := tab fun c => if named m c then { p.chans[c] with frozen := true } else p.chans[c] }
    answerOk r (u16 (freezeMask s1)) s1
  | _ => refuse r .badLen s

/-- thaw (R18): thaws the named frozen channels and sets their refill counts to 0. -/
def thawBody (r : Request) (s : State) : State :=
  match r.payload with
  | [m1, m0] =>
    let m := readMask m1 m0
    let s1 := s.mapPipe fun p =>
      { p with chans := tab fun c =>
          if named m c && p.chans[c].frozen then { p.chans[c] with frozen := false, refill := 0 } else p.chans[c] }
    answerOk r (u16 (freezeMask s1)) s1
  | _ => refuse r .badLen s

/-- The slots peek returns: `n` of them, ending `off` back from the newest, oldest first (R20). -/
def peekSlots (p : ChanPipe) (off n : Nat) : List Slot :=
  (List.range n).map fun i => ringRead p.ring ((p.newest.val + 512 - off - n + 1 + i) % 512)

/-- peek (R20): returns slots of a frozen channel's ring. Of a peek that meets both refusals, the model answers BADARG
(assumption log 32). -/
def peekBody (r : Request) (s : State) : State :=
  match r.payload with
  | [c, o1, o0, n] =>
    match readChan c, inRange 1 32 n.toNat, inRange 0 511 (be16 o1 o0) with
    | some c, some n, some off =>
      if 512 < off + n then refuse r .badArg s
      else
        let p := s.pipe.chans[c]
        if p.frozen then
          answerOk r (u8 c.val ++ u16 off ++ u8 n ++ u16 p.newest.val ++ (peekSlots p off n).flatMap slotBytes) s
        else refuse r .badState s
    | _, _, _ => refuse r .badArg s
  | _ => refuse r .badLen s

/-! ## The sample arrival -/

/-- The pipeline is written in PRIMING, RUNNING and SUSPENDED (R7). -/
def pipelineWritten (s : State) : Bool :=
  match s.acq.state with
  | .priming => true
  | .running => true
  | .suspended => true
  | .standby => false
  | .draining => false

/-- The slot composed for a channel at a sample arrival (R8 to R10). -/
def composeSlot (enable : Bool) (p : ChanPipe) (x : PerGain Code) : Slot :=
  if enable then
    { hg := x.hg, lg := x.lg, clipH := decide (x.hg = 4095#12), clipL := decide (x.lg = 4095#12),
      inj := decide (0 < p.injCount), trimStep := decide (0 < p.trimStepCount), disabled := false }
  else { Slot.cleared with disabled := true }

/-- The slot a sample arrival writes for a channel, if it writes one: the pipeline is written and the channel not frozen
(R7). -/
def writtenSlot (s : State) (x : Samples) (c : Chan) : Option Slot :=
  if pipelineWritten s && !s.pipe.chans[c].frozen then some (composeSlot s.front.recs[c].enable s.pipe.chans[c] x[c])
  else none

/-- A channel of the pipeline after a sample arrival (R7, R9, R10): the INJ count runs down at every arrival; the ring, the
newest index, the refill count and the TRIMSTEP count change only where a slot is written. -/
def writeChan (w : Fin 512) (slot : Option Slot) (p : ChanPipe) : ChanPipe :=
  match slot with
  | none => { p with injCount := p.injCount - 1 }
  | some y =>
    { p with ring := ringWrite p.ring w.val y, newest := w, refill := bump 512 p.refill, injCount := p.injCount - 1,
             trimStepCount := p.trimStepCount - 1 }

/-- The sample's crossing is quiet for the tracker: its quiet indication is set (R30), and the aligned flag is not clear (R29). -/
def quietSample (s : State) : Bool := s.timing.aligned && s.timing.quiet

/-- The tracker's result for a channel at a sample arrival (R78). -/
def trackAt (s : State) (x : Samples) (c : Chan) : ChanResult :=
  trackChan s.ped.chans[c] (quietSample s) (writtenSlot s x c) s.front.dacs[c]

/-- A short trim step sets the channel's TRIMSTEP count to 16 (R10, R82). -/
def stepMark (stepped : Bool) (p : ChanPipe) : ChanPipe := if stepped then { p with trimStepCount := 16 } else p

/-- The Sample Pipeline and the Pedestal Tracker at a sample arrival (R7, R78, R82), with the tracker's occurrences left
out. -/
def writeSample (x : Samples) (s : State) : State :=
  let res : Vector ChanResult 16 := tab fun c => trackAt s x c
  let written := pipelineWritten s
  let s1 := s.mapPipe fun p =>
    { p with w := if written then p.w + 1 else p.w, fill := if written then bump 512 p.fill else p.fill,
             chans := tab fun c => stepMark res[c].stepped (writeChan p.w (writtenSlot s x c) p.chans[c]) }
  let s2 := s1.mapPed fun q => { q with chans := tab fun c => res[c].track }
  s2.mapFront fun f => { f with dacs := tab fun c => res[c].dac }

/-- The tracker's occurrences at a sample arrival, in channel order, HG before LG. -/
def trackConds (x : Samples) (s : State) : List Cond := allChans.flatMap fun c => (trackAt s x c).conds

/-- PRIMING enters RUNNING when a written sample arrival has brought the fill count to L (R44). -/
def primingTest (s : State) : State :=
  match s.acq.state with
  | .priming => if s.pipe.fill = s.acq.startL then s.mapAcq fun a => { a with state := .running } else s
  | .running => s
  | .suspended => s
  | .standby => s
  | .draining => s

/-- A sample arrival (R2): with the Clock Synthesiser LOCKED, the codes reach the pipeline, the tracker and the Trim Engine,
and the controller tests for the end of priming. Without lock there are no sample arrivals. -/
def sampleArrival (x : Samples) (s : State) : State :=
  if s.clk.state = .locked then
    trimSample x (occurAll (trackConds x s) (primingTest (writeSample x s)))
  else s

/-- A sample arrival would bring the fill count to L in PRIMING (R44). -/
def primingDue (s : State) : Bool :=
  decide (s.clk.state = .locked ∧ s.acq.state = .priming ∧ bump 512 s.pipe.fill = s.acq.startL)

/-- A sample arrival would complete a block of some channel-gain (R79). -/
def blockDue (x : Samples) (s : State) : Bool :=
  decide (s.clk.state = .locked)
    && allChans.any fun c => completesBlock s.ped.chans[c] (quietSample s) (writtenSlot s x c)

/-- A sample arrival would complete a round of a long trim (R85). -/
def roundDue (s : State) : Bool :=
  decide (s.clk.state = .locked)
    && match s.trim.engine with
      | .long t => decide (roundArrivals ≤ t.arrivals + 1)
      | .idle => false
      | .manual _ => false

/-- A sample arrival would bring the manual-mode settle count to 0 (R94). -/
def settleDue (s : State) : Bool :=
  decide (s.clk.state = .locked)
    && match s.trim.engine with
      | .manual m => decide (m.settle = 1)
      | .idle => false
      | .long _ => false

/-- A sample arrival would be the 256th summed one of a trms (R95). -/
def trmsDue (s : State) : Bool :=
  decide (s.clk.state = .locked)
    && match s.trim.engine with
      | .manual m =>
        match m.measuring with
        | some q => decide (m.settle = 0 ∧ 256 ≤ q.count + 1)
        | none => false
      | .idle => false
      | .long _ => false

/-- A sample arrival that is the event a row of the table names; one that is not is no event, and nothing happens (assumption
log 2). -/
def sampleWhen (due : Bool) (x : Samples) (s : State) : State := if due then sampleArrival x s else s

/-! ## What the clock's leaving LOCKED does at the pipeline -/

/-- The fill count and every refill, INJ and TRIMSTEP count are set to 0 (R13, R21). -/
def emptyCounts (s : State) : State :=
  s.mapPipe fun p =>
    { p with fill := 0, chans := tab fun c => { p.chans[c] with refill := 0, injCount := 0, trimStepCount := 0 } }

/-- The fill count and every refill count are set to 0 (R42). -/
def emptyFill (s : State) : State :=
  s.mapPipe fun p => { p with fill := 0, chans := tab fun c => { p.chans[c] with refill := 0 } }

end Sys2Proof.Machine
end

