-- ==== Sys2Proof/Machine/SlowIntegrator.lean ====
section
/-!
DEFINITION. Chapter 9, section 9.3: the Slow Integrator Monitor's commands ints, intl, intr and intx, its settles and gates, and
the converter pulses (R174 to R180).
-/

namespace Sys2Proof.Machine

/-- Change the scan state. DESIGN CHOICE (assumption log 36): the measurement counter keeps its value where a scan stops, until
the next settle expiry sets it to 0 (R176); R180 does not say what it holds, and nothing can be seen of it. -/
def setScan (x : ScanState) (s : State) : State := s.mapInteg fun i => { i with scan := x }

/-- Entry into SETTLE for a channel: the settle count is 64 (R176). -/
def settleOn (c : Chan) : ScanState := .settle c 64

/-- The current channel and the settle or gate count, while a scan is in progress; the count in two bytes (R175, assumption
log 13). -/
def ScanState.progress : ScanState → List Byte
  | .idle => []
  | .settle c n => u8 c.val ++ u16 n
  | .gate c n => u8 c.val ++ u16 n

/-- ints (R175): starts a scan, or reads the scan settings. -/
def intsBody (r : Request) (s : State) : State :=
  match r.payload with
  | [] =>
    answerOk r (scanBytes s.integ.settings ++ u8 s.integ.scan.code ++ u8 s.integ.pass.toNat ++ s.integ.scan.progress) s
  | [st, en, mo, g1, g0] =>
    if s.integ.scan ≠ .idle then refuse r .busy s
    else if s.clk.state ≠ .locked then refuse r .badState s
    else
      match readScan st en mo g1 g0 with
      | none => refuse r .badArg s
      | some t =>
        answerOk r (scanBytes t)
          (s.mapInteg fun i =>
            { i with startChan := t.startChan, endChan := t.endChan, mode := t.mode, gateLength := t.gateLength,
                     pass := 0, scan := settleOn t.startChan })
  | _ => refuse r .badLen s

/-- intl (R178): writes or reads the limit. -/
def intlBody (r : Request) (s : State) : State :=
  match r.payload with
  | [] => answerOk r (u24 s.integ.limit) s
  | [a, b, c] => answerOk r (u24 (be24 a b c)) (s.mapInteg fun i => { i with limit := be24 a b c })
  | _ => refuse r .badLen s

/-- A reading as bytes (R179). -/
def readingBytes (x : Reading) : List Byte :=
  u8 x.status.code ++ u24 x.count ++ u16 x.gate ++ u8 x.pass.toNat ++ u8 (flagCode x.ovf) ++ u8 (flagCode x.overwritten)

/-- A NEW reading becomes READ; EMPTY and READ stay (R179). -/
def Reading.markRead (x : Reading) : Reading :=
  match x.status with
  | .new => { x with status := .read }
  | .empty => x
  | .read => x

/-- intr for a mask: the readings as they stand, then NEW becomes READ in each named one (R179). -/
def readReadings (r : Request) (m : ChanMask) (s : State) : State :=
  answerOk r (u8 s.integ.scan.code ++ u8 s.integ.pass.toNat ++ (namedChans m).flatMap fun c => readingBytes s.integ.readings[c])
    (s.mapInteg fun i =>
      { i with readings := tab fun c => if named m c then i.readings[c].markRead else i.readings[c] })

/-- intr (R179): reads integrator readings and marks NEW readings READ. -/
def intrBody (r : Request) (s : State) : State :=
  match r.payload with
  | [] => readReadings r (BitVec.allOnes 16) s
  | [m1, m0] => readReadings r (readMask m1 m0) s
  | _ => refuse r .badLen s

/-- The channel a scan is at, as the reply of intx gives it: none when the scan is IDLE (R180). -/
def ScanState.channelBytes : ScanState → List Byte
  | .idle => []
  | .settle c _ => u8 c.val
  | .gate c _ => u8 c.val

/-- intx (R180): stops a scan in progress. -/
def intxBody (r : Request) (s : State) : State :=
  match r.payload with
  | [] => answerOk r s.integ.scan.channelBytes (setScan .idle s)
  | _ => refuse r .badLen s

/-- A converter pulse from a channel: counted in GATE when the channel is the selected one, up to the top (R176). -/
def converterPulse (c : Chan) (s : State) : State :=
  match s.integ.scan with
  | .gate d _ => if d = c then s.mapInteg fun i => { i with counter := bump Config.measureTop i.counter } else s
  | .idle => s
  | .settle _ _ => s

/-- The reading a gate expiry writes over an old one (R177). -/
def newReading (i : Integrator) (old : Reading) : Reading :=
  { status := .new, count := i.counter, gate := i.gateLength, pass := i.pass,
    ovf := decide (i.counter = Config.measureTop), overwritten := decide (old.status = .new) }

/-- The scan moves on from a channel (R177). -/
def Integrator.moveOn (c : Chan) (i : Integrator) : Integrator :=
  if c < i.endChan then { i with scan := settleOn (c + 1) }
  else
    match i.mode with
    | .single => { i with scan := .idle }
    | .continuous => { i with scan := settleOn i.startChan, pass := i.pass + 1 }

/-- The gate expiry of a channel (R177): the reading is written, INT_OVERWRITE, INT_OVF and INT_HIGH latch as due, and the
scan moves on. -/
def expireGate (c : Chan) (s : State) : State :=
  let i := s.integ
  let old := i.readings[c]
  let x := newReading i old
  let s1 := s.mapInteg fun i => { i with readings := put i.readings c x }.moveOn c
  occurIf (decide (i.limit < i.counter)) .intHigh none
    (occurIf x.ovf .intOvf none (occurIf x.overwritten .intOverwrite none s1))

/-- A crossing arrival at the monitor: the settle or the gate counts down, and expires at 0 (R176, R177). -/
def scanTick (s : State) : State :=
  match s.integ.scan with
  | .idle => s
  | .settle c n =>
    if n ≤ 1 then s.mapInteg fun i => { i with counter := 0, scan := .gate c i.gateLength } else setScan (.settle c (n - 1)) s
  | .gate c n => if n ≤ 1 then expireGate c s else setScan (.gate c (n - 1)) s

end Sys2Proof.Machine
end

