-- ==== Sys2Proof/Machine/Acquisition.lean ====
section
/-!
DEFINITION. Chapter 3: strt, stop and rset (R41, R42, R47, R49 to R53), the completion of rset, power-on (R40), and the
departure of the Clock Synthesiser from LOCKED as it reaches every block (R37, R45).
-/

namespace Sys2Proof.Machine

/-! ## Power-on -/

/-- Every block in its power-on state (R40). The queue of commands, the records of what has been sent and the index of the
free values are the model's own, and stay. -/
def powerOn (s : State) : State :=
  { State.reset with
    pending := s.pending, freeIndex := s.freeIndex,
    tx := { State.reset.tx with sent := s.tx.sent },
    inj := { State.reset.inj with driven := s.inj.driven },
    ctl := { State.reset.ctl with sent := s.ctl.sent } }

/-- POWER_ON (R40). -/
def execPowerOn (s : State) : Host.Outcome State Fault Refusal := .next (powerOn s)

/-! ## Leaving LOCKED -/

/-- What the departure does at the Acquisition Controller: RUNNING becomes PRIMING, every other state is kept (R45). -/
def acqDeparture (s : State) : State :=
  match s.acq.state with
  | .running => s.mapAcq fun a => { a with state := .priming }
  | .priming => s
  | .suspended => s
  | .standby => s
  | .draining => s

/-- The departure of the Clock Synthesiser from LOCKED, at every block that depends on samples (R37). -/
def clockDeparture (s : State) : State :=
  trimDeparture (setScan .idle (setInjState .disarmed (acqDeparture (emptyCounts s))))

/-! ## strt and stop -/

/-- The first gain whose filter set has a length other than N: HG if the HG set fails, LG otherwise (R41). -/
def filterFault (s : State) (c : Chan) : Option Gain :=
  let r := s.front.recs[c]
  if r.enable then
    if s.filt.sets[r.hgSet].length ≠ s.pipe.window then some .hg
    else if s.filt.sets[r.lgSet].length ≠ s.pipe.window then some .lg
    else none
  else none

/-- The lowest-numbered enabled channel that fails the filter check, with its gain (R41). -/
def firstFilterFault (s : State) : Option (Chan × Gain) :=
  allChans.findSome? fun c => (filterFault s c).map fun g => (c, g)

/-- A strt that passes its checks (R42). -/
def startRun (s : State) : State :=
  let s1 := emptyFill (s.mapAcq fun a => { a with startL := s.pipe.latency, startN := s.pipe.window, startS := s.clk.s })
  if class3 s then enterSuspended s1 else s1.mapAcq fun a => { a with state := .priming }

/-- A strt refused with a reason: the reason and the acquisition state, and for FILTER the channel and its gain (R41). -/
def refuseStart (r : Request) (reason : Nat) (more : List Byte) (s : State) : State :=
  answer r.tag .badState (u8 reason ++ u8 s.acq.state.code ++ more) s

/-- strt (R41, R42): checks the part and starts a run. -/
def strtBody (r : Request) (s : State) : State :=
  match r.payload with
  | [] =>
    if !inStandby s then refuseStart r 0 [] s
    else if s.clk.state ≠ .locked then refuseStart r 1 [] s
    else if inLong s then refuseStart r 2 [] s
    else
      match firstFilterFault s with
      | some (c, g) => refuseStart r 3 (u8 c.val ++ u8 (gainCode g)) s
      | none =>
        let s1 := startRun s
        answerOk r (u8 s1.acq.state.code ++ u16 s1.acq.startL ++ u8 s1.acq.startN ++ u8 s1.acq.startS) s1
  | _ => refuse r .badLen s

/-- PRIMING, RUNNING and SUSPENDED enter DRAINING; leaving SUSPENDED decides the throttle anew (R47, R70). -/
def stopRun (s : State) : State :=
  let s1 := s.mapAcq fun a => { a with state := .draining }
  match s.acq.state with
  | .priming => drainTest s1
  | .running => drainTest s1
  | .suspended => drainTest (throttleRelax s1)
  | .standby => s
  | .draining => s

/-- stop (R47): moves a run into DRAINING. -/
def stopBody (r : Request) (s : State) : State :=
  match r.payload with
  | [] => let s1 := stopRun s; answerOk r (u8 s1.acq.state.code) s1
  | _ => refuse r .badLen s

/-! ## rset -/

/-- What rset does at the Accept Queue (R50). -/
def resetQueue (s : State) : State :=
  throttleOff (s.mapAq fun q =>
    { q with records := [], snaps := tab fun _ => none, gap := 0, history := [], recordMark := 0, slotMark := 0 })

/-- What rset does at the Fragment Builder, the Reconstruction Unit and the Readout Transmitter (R51). -/
def resetReadout (s : State) : State :=
  (s.mapBuilder fun _ => { state := .idle, inFlight := none }).mapTx fun t =>
    { t with buffer := t.buffer.take (t.begun.getD 0), credits := 0, stallTimer := 0, stallMark := false }

/-- What rset does at the Trim Engine: a long trim aborts, and manual trim mode is left (R52, R90). -/
def resetTrim (s : State) : State :=
  match s.trim.engine with
  | .idle => s
  | .long t => abortLong t s
  | .manual _ => s.mapTrim fun u => { u with engine := .idle }

/-- A channel-gain's partial block and pending blank are discarded (R52). -/
def GainTrack.discard (g : GainTrack) : GainTrack := { g with count := 0, sum := 0, blank := false }

/-- What rset does at the Pedestal Tracker (R52). -/
def resetTracker (s : State) : State :=
  s.mapPed fun q =>
    { q with chans := tab fun c =>
        { q.chans[c] with gains := ⟨q.chans[c].gains.hg.discard, q.chans[c].gains.lg.discard⟩ } }

/-- What rset does at the Charge Injector (R52). -/
def resetInjector (s : State) : State := s.mapInj fun i => { i with state := .disarmed, pending := [] }

/-- The effects of rset at its execution (R49 to R53): acquisition enters STANDBY, and every block applies its own. The
occurrences that the reset latches come after the clear of the activity counters, which they do not touch. -/
def softReset (s : State) : State :=
  let s1 := enterStandby (resetReadout (resetQueue (emptyCounts s)))
  let s2 := setScan .idle (resetInjector (resetTracker (resetTrim s1)))
  tally (fun _ => Counters.zero) s2

/-- The reply of rset: the acquisition state, in a frame that carries the class summary (R49, assumption log 10). -/
def rsetReply (tag : Byte) (s : State) : State := answer tag .ok (u8 s.acq.state.code) s

/-- rset (R49): executes the soft reset. With no block begun and no BUSY-OFF to send the reset is complete at once, and is
answered; otherwise the reply waits. -/
def rsetBody (r : Request) (s : State) : State :=
  match r.payload with
  | [] =>
    let s1 := softReset s
    if s.tx.begun.isNone && !s.aq.throttle then rsetReply r.tag s1
    else s1.mapCtl fun c => { c with executing := .rset r.tag s.aq.throttle }
  | _ => refuse r .badLen s

/-- The rset in execution is complete: the begun block has finished and any BUSY-OFF it required has been sent (R49). -/
def rsetDue (s : State) : Bool :=
  match s.ctl.executing with
  | .rset _ awaits => s.tx.begun.isNone && !awaits
  | .none => false
  | .trms _ => false
  | .cclr _ _ => false
  | .sending _ => false

/-- The completion of rset, where it is due: its reply is sent (R49). -/
def completeRset (s : State) : State :=
  match s.ctl.executing with
  | .rset tag _ => if rsetDue s then rsetReply tag s else s
  | .none => s
  | .trms _ => s
  | .cclr _ _ => s
  | .sending _ => s

end Sys2Proof.Machine
end

