-- ==== Sys2Proof/Machine/TimingLink.lean ====
section
/-!
DEFINITION. Chapter 2: the commands turn and clks (R31, R38), the timing-link frame and all it brings about in one arrival (R22
to R35), the loss of the crossing clock and the phase slip (R23, R36). When a
frame is one of the kinds that have a row of their own stands here too.
-/

namespace Sys2Proof.Machine

/-! ## turn and clks -/

/-- The turn settings as bytes (R31). -/
def turnBytes (t : Timing) : List Byte := u16 t.turnLength ++ u16 t.quietFrom ++ u16 t.quietTo

/-- turn (R31): writes or reads the turn length and quiet range. The write clears the aligned flag, so the tracker counts no
sample from then on (R29). -/
def turnBody (r : Request) (s : State) : State :=
  match r.payload with
  | [] =>
    answerOk r
      (turnBytes s.timing ++ u8 s.timing.link.code ++ u8 (flagCode s.timing.aligned) ++ u16 s.timing.counter
        ++ u32 s.timing.serial.toNat ++ u24 s.timing.event.toNat) s
  | [n1, n0, f1, f0, t1, t0] =>
    if !inStandby s then refuse r .badState s
    else
      match readTurn n1 n0 f1 f0 t1 t0 with
      | none => refuse r .badArg s
      | some (len, qf, qt) =>
        let s1 := s.mapTiming fun t =>
          { t with turnLength := len, quietFrom := qf, quietTo := qt, counter := 0, aligned := false }
        answerOk r (turnBytes s1.timing) s1
  | _ => refuse r .badLen s

/-- The clock's departure from LOCKED, if it is LOCKED (R37). -/
def departIfLocked (locked : Bool) (s : State) : State := if locked then clockDeparture s else s

/-- A crossing clock is present unless the link is NO_SIGNAL (R23). -/
def clockPresent (s : State) : Bool := decide (s.timing.link ≠ .noSignal)

/-- An accepted clks write (R38): S and the phase are set, L is raised where R16 asks for it, and lock acquisition restarts. -/
def applyClks (sPer phase : Nat) (s : State) : State :=
  let s1 := s.mapPipe fun p => if sPer = 2 ∧ p.latency % 2 = 1 then { p with latency := p.latency + 1 } else p
  let s2 := s1.mapClk fun _ =>
    { s := sPer, phase := phase, state := if clockPresent s then .acquiring else .unlocked, lockCount := 0 }
  departIfLocked (decide (s.clk.state = .locked)) s2

/-- clks (R38): writes or reads S and the phase; a write restarts lock acquisition. -/
def clksBody (r : Request) (s : State) : State :=
  match r.payload with
  | [] => answerOk r (u8 s.clk.s ++ u8 s.clk.phase ++ u8 s.clk.state.code ++ u16 s.clk.lockCount) s
  | [n, p] =>
    if !inStandby s then refuse r .badState s
    else if inLong s then refuse r .busy s
    else
      match inRange 1 2 n.toNat, inRange 0 63 p.toNat with
      | some sPer, some phase =>
        let s1 := applyClks sPer phase s
        answerOk r (u8 s1.clk.s ++ u8 s1.clk.phase ++ u8 s1.clk.state.code) s1
      | some _, none => refuse r .badArg s
      | none, some _ => refuse r .badArg s
      | none, none => refuse r .badArg s
  | _ => refuse r .badLen s

/-! ## The Timing Receiver at a frame -/

/-- Entry into SEEKING: the candidate is the bit position at which the last frame was taken, the run count is 0 and the
aligned flag is clear (R24, R29). -/
def enterSeeking (s : State) : State :=
  s.mapTiming fun t => { t with link := .seeking, candidate := t.lastTaken, runCount := 0, aligned := false }

/-- The first frame after a crossing clock becomes present takes the link into SEEKING and the synthesiser into ACQUIRING
(R23, R35). -/
def clockAppears (s : State) : State :=
  if clockPresent s then s
  else (enterSeeking s).mapClk fun c => { c with state := .acquiring, lockCount := 0 }

/-- A frame taken in SEEKING (R24). -/
def seekFrame (good : Bool) (s : State) : State :=
  s.mapTiming fun t =>
    if good then
      if Config.lockRun ≤ t.runCount + 1 then { t with runCount := Config.lockRun, link := .locked, failCount := 0 }
      else { t with runCount := t.runCount + 1 }
    else { t with runCount := 0, candidate := t.candidate + 1 }

/-- A frame that fails its check in LOCKED: TL_CHECK latches, and the eighth in a row loses the link with TL_LOSS (R25). -/
def badFrame (s : State) : State :=
  let s1 := occur .tlCheck none (s.mapTiming fun t => { t with failCount := t.failCount + 1 })
  if Config.lossCount ≤ s1.timing.failCount then
    occur .tlLoss none (enterSeeking s1)
  else s1

/-- A frame is taken at the alignment of the link: its bit position is noted, and the rest is as the state of the link has it
(R24, R25). -/
def takeFrame (good : Bool) (s : State) : State :=
  let s1 := s.mapTiming fun t => { t with lastTaken := t.candidate }
  match s.timing.link with
  | .noSignal => s1
  | .seeking => seekFrame good s1
  | .locked => if good then s1.mapTiming fun t => { t with failCount := 0 } else badFrame s1

/-- The crossing serial and the crossing counter advance (R27, R28). -/
def advanceCrossing (s : State) : State :=
  s.mapTiming fun t =>
    { t with serial := t.serial + 1, counter := if t.counter + 1 < t.turnLength then t.counter + 1 else 0 }

/-- A TURNMARK that acts (R29). -/
def turnmark (s : State) : State :=
  occurIf (s.timing.aligned && decide (s.timing.counter ≠ 0)) .turnSlip none
    (s.mapTiming fun t => { t with counter := 0, aligned := true })

/-- A counter value lies in the quiet range (R30). -/
def inQuiet (t : Timing) : Bool :=
  if t.quietFrom ≤ t.quietTo then decide (t.quietFrom ≤ t.counter ∧ t.counter ≤ t.quietTo)
  else decide (t.quietFrom ≤ t.counter ∨ t.counter ≤ t.quietTo)

/-- The quiet indication of the crossing (R30). -/
def setQuiet (s : State) : State := s.mapTiming fun t => { t with quiet := t.aligned && inQuiet t }

/-- The fast commands of a frame that act: all of them when the frame passes in LOCKED, none otherwise (R22, R25). -/
structure FastCommands where
  accept : Bool
  turnmark : Bool
  evclear : Bool
  pulsereq : Bool
  deriving DecidableEq, Repr

/-- The fast commands of a frame taken in a link state. -/
def fastCommands (link : LinkState) (f : Byte) : FastCommands :=
  let acts := decide (link = .locked) && frameGood f
  { accept := acts && frameAccept f, turnmark := acts && frameTurnmark f, evclear := acts && frameEvclear f,
    pulsereq := acts && framePulsereq f }

/-- The Timing Receiver at a frame, in the order of R26: the frame's check and the link state, the advance, TURNMARK and
EVCLEAR, the event number taken by an accept, and the quiet indication. -/
def receiverFrame (f : Byte) (s : State) : State :=
  let s0 := clockAppears s
  let fc := fastCommands s.timing.link f
  let s1 := advanceCrossing (takeFrame (frameGood f) s0)
  let s2 := if fc.turnmark then turnmark s1 else s1
  let s3 := s2.mapTiming fun t =>
    let e := if fc.evclear then 0 else t.event
    { t with event := if fc.accept then e + 1 else e }
  setQuiet s3

/-- The event number the accept of a frame is given (R32, R33). -/
def acceptNumber (fc : FastCommands) (s : State) : EventNum := if fc.evclear then 0 else s.timing.event

/-! ## What the frame hands to the other blocks -/

/-- A crossing arrival at the Clock Synthesiser: in ACQUIRING the lock counter increases, and at 2048 the state becomes LOCKED
(R35). The frame that starts the acquisition is not counted. -/
def lockTick (starts : Bool) (s : State) : State :=
  match s.clk.state with
  | .acquiring =>
    if starts then s
    else if Config.lockCrossings ≤ s.clk.lockCount + 1 then
      s.mapClk fun c => { c with state := .locked, lockCount := Config.lockCrossings }
    else s.mapClk fun c => { c with lockCount := c.lockCount + 1 }
  | .unlocked => s
  | .locked => s

/-- What the things one frame brings about look at besides the state: its fast commands, the event number of its accept,
whether it starts the synthesiser's acquisition, the injector state before it, whether the transmitter was waiting before
it, and the index of its free values. -/
structure FrameContext where
  fc : FastCommands
  number : EventNum
  starts : Bool
  before : InjState
  wasWaiting : Bool
  index : Nat
  deriving DecidableEq, Repr

/-- One of the things a frame brings about. The stall timer's crossing arrival finds the transmitter waiting if it was
waiting before the frame; where only the frame's own accept made it so, a free value says whether the crossing arrival
came after it (assumption log 5). -/
def frameAct (x : FrameContext) (a : FrameAct) (s : State) : State :=
  match a with
  | .lock => lockTick x.starts s
  | .gate => scanTick s
  | .expire => expirePulses s
  | .fire => fireDue s
  | .request => if x.fc.pulsereq then pulseRequest x.before s else s
  | .accept => if x.fc.accept then acceptArrival x.number s else s
  | .stall => stallTick (x.wasWaiting || (waiting s && Config.stallAfterAccept x.index)) s

/-- A train is in progress. -/
def InjState.inTrain : InjState → Bool
  | .disarmed => false
  | .armed => false
  | .delaying _ => true
  | .firing _ _ => true

/-- A pulse may fire with this frame while the pending list is full: whether it finds room then depends on the order (R170). -/
def listRace (fc : FastCommands) (s : State) : Bool :=
  decide (Config.maxPulses ≤ s.inj.pending.length) && (s.inj.state.inTrain || fc.pulsereq)

/-- The conditions that the crossing arrival and the pulse request of a frame may latch, in a state after the Timing Receiver
has taken the frame. -/
def frameConds (fc : FastCommands) (s : State) : List Cond :=
  (if s.inj.pending.any (expired (lookBack s.acq) s.timing.serial) then [.calMissed] else [])
    ++ (if listRace fc s then [.calListFull] else [])
    ++ (if fc.pulsereq && s.inj.state.inTrain then [.calOverlap] else [])
    ++ (match s.integ.scan with
        | .gate _ n => if n ≤ 1 then [.intOverwrite, .intOvf, .intHigh] else []
        | .idle => []
        | .settle _ _ => [])
    ++ (if !s.tx.stallMark && decide (stallTop s.tx ≤ s.tx.stallTimer + 1) then [.rlStall] else [])

/-- An occurrence of c would raise a class that is not raised (R183). -/
def wouldRaise (t : CondTable) (c : Cond) : Bool :=
  decide (t.recs[c.num].cls ≠ .none) && !t.raised t.recs[c.num].cls

/-- The accept of a frame can tell whether the rest of the frame came before it: something else that the frame brings about
may raise a class, which the accept sees in the acquisition state or in the header of a fragment it has appended. -/
def classRace (fc : FastCommands) (s : State) : Bool := fc.accept && (frameConds fc s).any (wouldRaise s.cond)

/-- The order in which the blocks take what a frame hands them: the order of R26 where no order can be told from another, and
a free one otherwise (assumption log 4). -/
def actOrder (fc : FastCommands) (s : State) : List FrameAct :=
  if classRace fc s || listRace fc s then
    if (Config.frameOrder s.freeIndex).Perm frameActs then Config.frameOrder s.freeIndex else frameActs
  else frameActs

/-- A timing-link frame: one arrival (R22, R26, R33). -/
def timingFrame (f : Byte) (s : State) : State :=
  let fc := fastCommands s.timing.link f
  let s1 := receiverFrame f s
  let x : FrameContext :=
    { fc := fc, number := acceptNumber fc s, starts := !clockPresent s, before := s.inj.state, wasWaiting := waiting s,
      index := s.freeIndex }
  ((actOrder fc s1).foldl (fun s a => frameAct x a s) s1).mapFreeIndex (· + 1)

/-! ## Frames of a certain kind -/

/-- A frame that the row of the table is about; any other is not this event, and nothing happens (assumption log 2). -/
def frameWhen (due : Bool) (f : Byte) (s : State) : State := if due then timingFrame f s else s

/-- The serial the next frame brings. -/
def nextSerial (s : State) : Serial := s.timing.serial + 1

/-- The frame would bring the run count to 64 in SEEKING (R24). -/
def lockDue (f : Byte) (s : State) : Bool :=
  decide (s.timing.link = .seeking ∧ Config.lockRun ≤ s.timing.runCount + 1) && frameGood f

/-- The frame would bring the failure count to 8 in LOCKED (R25). -/
def lossDue (f : Byte) (s : State) : Bool :=
  decide (s.timing.link = .locked ∧ Config.lossCount ≤ s.timing.failCount + 1) && !frameGood f

/-- The crossing arrival would fire the first pulse of a train (R167). -/
def delayDue (s : State) : Bool :=
  match s.inj.state with
  | .delaying next => decide (next = nextSerial s)
  | .disarmed => false
  | .armed => false
  | .firing _ _ => false

/-- The crossing arrival would fire a later pulse of a train (R168). -/
def firingDue (s : State) : Bool :=
  match s.inj.state with
  | .firing next _ => decide (next = nextSerial s)
  | .disarmed => false
  | .armed => false
  | .delaying _ => false

/-- The crossing arrival would expire a pending pulse (R171). -/
def expiryDue (s : State) : Bool := s.inj.pending.any (expired (lookBack s.acq) (nextSerial s))

/-- The crossing arrival would bring the lock counter to 2048 (R35). -/
def clockLockDue (s : State) : Bool :=
  clockPresent s && decide (s.clk.state = .acquiring ∧ Config.lockCrossings ≤ s.clk.lockCount + 1)

/-- The crossing arrival would bring the settle count of the scan to 0 (R176). -/
def scanSettleDue (s : State) : Bool :=
  match s.integ.scan with
  | .settle _ n => decide (n ≤ 1)
  | .idle => false
  | .gate _ _ => false

/-- The crossing arrival would bring the gate count to 0 (R176). -/
def gateDue (s : State) : Bool :=
  match s.integ.scan with
  | .gate _ n => decide (n ≤ 1)
  | .idle => false
  | .settle _ _ => false

/-- The crossing arrival would find the transmitter waiting and the timer at its top, for the first time in the episode
(R159). -/
def stallDue (s : State) : Bool :=
  waiting s && decide (bump (stallTop s.tx) s.tx.stallTimer = stallTop s.tx) && !s.tx.stallMark

/-! ## Loss of the crossing clock and phase slip -/

/-- The crossing clock disappears (R23, R36): the link enters NO_SIGNAL with TL_LOSS from LOCKED, and the synthesiser UNLOCKED
with CLK_UNLOCK from LOCKED, whose departure reaches every block. That the conditions latch before the departure answers a trms
in progress is the model's choice (assumption log 33). -/
def clockLoss (s : State) : State :=
  if clockPresent s then
    let linkLocked := decide (s.timing.link = .locked)
    let clkLocked := decide (s.clk.state = .locked)
    let s1 := (s.mapTiming fun t => { t with link := .noSignal, aligned := false }).mapClk fun c =>
      { c with state := .unlocked, lockCount := 0 }
    departIfLocked clkLocked (occurIf clkLocked .clkUnlock none (occurIf linkLocked .tlLoss none s1))
  else s

/-- A detected phase slip (R35, R36): acquisition of lock starts again; from LOCKED, CLK_UNLOCK latches and the departure
reaches every block. That the condition latches before the departure answers a trms in progress is the model's choice
(assumption log 33). An UNLOCKED synthesiser has no sample clock to slip. -/
def phaseSlip (s : State) : State :=
  let restart := fun s : State => s.mapClk fun c => { c with state := .acquiring, lockCount := 0 }
  match s.clk.state with
  | .unlocked => s
  | .acquiring => restart s
  | .locked => clockDeparture (occur .clkUnlock none (restart s))

end Sys2Proof.Machine
end

