-- ==== Sys2Proof/Machine/HeldRequests.lean ====
section
/-!
DEFINITION. What the Control Port does between one event and the next (R187, R194): the reply of an executed cclr is formed, the
last byte of a reply goes, and with no request in execution the oldest frame of the receive buffer is executed.
-/

namespace Sys2Proof.Machine

/-- The execution of the request that a frame taken from the receive buffer asks for (R194). No event is such a request. -/
def runRequest (i : Instr) (s : State) : State :=
  match i with
  | .unknownCommand _ r => takeRequest true r unknownBody s
  | .chan r => takeRequest false r chanBody s
  | .pipe r => takeRequest false r pipeBody s
  | .frze r => takeRequest false r frzeBody s
  | .thaw r => takeRequest false r thawBody s
  | .peek r => takeRequest false r peekBody s
  | .turn r => takeRequest false r turnBody s
  | .clks r => takeRequest false r clksBody s
  | .strt r => takeRequest false r strtBody s
  | .stop r => takeRequest false r stopBody s
  | .rset r => takeRequest true r rsetBody s
  | .rule r => takeRequest false r ruleBody s
  | .busy r => takeRequest false r busyBody s
  | .trks r => takeRequest false r trksBody s
  | .pedl r => takeRequest false r pedlBody s
  | .trml r => takeRequest false r trmlBody s
  | .trmr r => takeRequest false r trmrBody s
  | .tren r => takeRequest false r trenBody s
  | .trst r => takeRequest true r trstBody s
  | .trms r => takeRequest true r trmsBody s
  | .trex r => takeRequest true r trexBody s
  | .filt r => takeRequest false r filtBody s
  | .lclr r => takeRequest false r lclrBody s
  | .lapp r => takeRequest false r lappBody s
  | .lins r => takeRequest false r linsBody s
  | .lrem r => takeRequest false r lremBody s
  | .lrep r => takeRequest false r lrepBody s
  | .lrds r => takeRequest false r lrdsBody s
  | .lcom r => takeRequest false r lcomBody s
  | .srci r => takeRequest false r srciBody s
  | .stlm r => takeRequest false r stlmBody s
  | .injs r => takeRequest false r injsBody s
  | .inja r => takeRequest false r injaBody s
  | .injd r => takeRequest false r injdBody s
  | .injf r => takeRequest false r injfBody s
  | .ints r => takeRequest false r intsBody s
  | .intl r => takeRequest false r intlBody s
  | .intr r => takeRequest false r intrBody s
  | .intx r => takeRequest false r intxBody s
  | .cmap r => takeRequest false r cmapBody s
  | .cclr r => takeRequest false r cclrBody s
  | .cntr r => takeRequest false r cntrBody s
  | .cond r => takeRequest true r condBody s
  | .stat r => takeRequest true r statBody s
  | .idnt r => takeRequest true r idntBody s
  | .powerOn | .sampleArrival _ | .primingComplete _ | .blockComplete _ | .timingFrame _ | .linkLock _ |
    .linkLoss _ | .delayExpiry _ | .pulseFiring _ | .pendingPulseExpiry _ | .lockAcquired _ | .phaseSlip |
    .crossingClockLoss | .settleExpiry _ | .converterPulse _ | .gateExpiry _ | .stallTimeout _ |
    .creditFrame _ | .frameBoundary | .blockCompletion | .recordStart | .entryCompletion | .fragmentAppend |
    .drainComplete | .trimRoundComplete _ | .manualSettleExpiry _ | .trmsComplete _ | .rsetComplete |
    .requestFrame _ | .interByteTimeout => s

/-- The Control Port with what holds it replaced (R194). -/
def setExecuting (x : Execution) (s : State) : State := s.mapCtl fun c => { c with executing := x }

/-- The receive buffer replaced (R193). -/
def setBuffer (held : List Frame) (s : State) : State := s.mapCtl fun c => { c with buffer := held }

/-- The oldest frame leaves the receive buffer at a free port and is executed; the others stay (R194). -/
def executeOldest (f : Frame) (rest : List Frame) (s : State) : State :=
  setBuffer rest (runRequest (commandOf f) (setBuffer [] (setExecuting .none s)))

/-- The reply of an executed cclr is formed when no more events of its moment come before it (R187). -/
def formCclr (s : State) : State :=
  match s.ctl.executing with
  | .cclr tag 0 => cclrReply tag s
  | .cclr _ (_ + 1) => s
  | .sending _ => s
  | .none => s
  | .trms _ => s
  | .rset _ _ => s

/-- No request is in execution, and no more events come before the last byte of the reply has gone (R194). -/
def mayExecute (s : State) : Bool :=
  match s.ctl.executing with
  | .none => true
  | .sending n => decide (n = 0)
  | .cclr _ _ => false
  | .trms _ => false
  | .rset _ _ => false

/-- One of the events that come while a reply is being sent, or before one is formed, has come. -/
def Execution.eventComes : Execution → Execution
  | .sending n => .sending (n - 1)
  | .cclr tag n => .cclr tag (n - 1)
  | .none => .none
  | .trms tag => .trms tag
  | .rset tag b => .rset tag b

/-- What the port does before an event comes, with the given frames held: as long as it may, it executes the oldest one. -/
def portWork : List Frame → State → State
  | [], s =>
    let s1 := formCclr s
    setExecuting (if mayExecute s1 then .none else s1.ctl.executing.eventComes) s1
  | f :: rest, s =>
    let s1 := formCclr s
    if mayExecute s1 then portWork rest (executeOldest f rest s1)
    else setExecuting s1.ctl.executing.eventComes s1

/-- What the port does before the next event comes (R194, assumption log 3). -/
def beforeEvent (s : State) : State := portWork s.ctl.buffer s

/-- An event comes and has its effect; what the port does before it comes first. -/
def duringEvent (effect : State → State) (s : State) : State := effect (beforeEvent s)

/-- Time in which no event comes: the reply of an executed cclr is formed, or the last byte of a reply goes and the oldest frame
held is executed; a port that waits for an event, or for nothing, goes on waiting (assumption log 1). -/
def idleTime (s : State) : State :=
  match s.ctl.executing, s.ctl.buffer with
  | .cclr tag _, _ => cclrReply tag s
  | .sending _, [] => setExecuting .none s
  | .sending _, f :: rest => executeOldest f rest s
  | .none, [] => s
  | .none, f :: rest => executeOldest f rest s
  | .trms _, _ => s
  | .rset _ _, _ => s

/-- A request arrives at the Control Port as a complete frame (R193, R194): a free port executes it at once; otherwise it joins the
receive buffer as any complete frame does. -/
def serve (name : BitVec 32) (takenInManual : Bool) (r : Request) (body : Request → State → State) : State → State :=
  duringEvent fun s =>
    if portFree s then takeRequest takenInManual r body s
    else receiveFrame { tag := r.tag, name := name, payload := r.payload } s

end Sys2Proof.Machine
end

