-- ==== Sys2Proof/Machine/Receiver.lean ====
section
/-!
DEFINITION. Sections 11.1 and 11.2: the Control Port's receiver over the bytes of the control link, and its timeout (R191, R192).
-/

namespace Sys2Proof.Machine

/-- What the receiver finds in the bytes it takes (R192): a frame discarded for its length or its check, or a complete
frame. -/
inductive Found where
  | discarded
  | complete (f : Frame)
  deriving DecidableEq, Repr

/-- The four name bytes as one value, the first character in the top byte. -/
def nameOf (a b c d : Byte) : BitVec 32 := a ++ b ++ c ++ d

/-- The frame in the bytes from the length byte through the last payload byte, when they are long enough. -/
def frameOf : List Byte → Option Frame
  | _ :: tag :: a :: b :: c :: d :: payload => some { tag := tag, name := nameOf a b c d, payload := payload }
  | _ => none

/-- What stands after a start byte (R192): nothing complete yet, a frame to be discarded, or a complete frame and the bytes
after it. -/
inductive Taken where
  | partly
  | bad
  | good (f : Frame) (rest : List Byte)
  deriving DecidableEq, Repr

/-- Look at the bytes after a start byte: the length must lie in 5..245, and the check must match (R192). -/
def takeBytes : List Byte → Taken
  | [] => .partly
  | len :: t =>
    if len.toNat < 5 ∨ 245 < len.toNat then .bad
    else if t.length < len.toNat + 2 then .partly
    else
      let body := len :: t.take len.toNat
      if (t.drop len.toNat).take 2 = crcBytes body then
        match frameOf body with
        | some f => .good f (t.drop (len.toNat + 2))
        | none => .bad
      else .bad

/-- The receiver over a stream of bytes, from HUNT (R192): bytes other than 0x5B are discarded without trace; after a discard
hunting resumes after that frame's start byte. The answer holds what was found, and what the receiver is left with. Every
round uses up a byte, so as many rounds as there are bytes are enough. -/
def hunt : Nat → List Byte → List Found × Option (List Byte)
  | 0, _ => ([], none)
  | _ + 1, [] => ([], none)
  | k + 1, b :: t =>
    if b = 0x5B#8 then
      match takeBytes t with
      | .partly => ([], some t)
      | .bad => let (fs, left) := hunt k t; (.discarded :: fs, left)
      | .good f rest => let (fs, left) := hunt k rest; (.complete f :: fs, left)
    else hunt k t

/-- The stream the receiver looks at when bytes arrive: in FRAME, the start byte and the bytes taken so far stand before
them. -/
def stream (receiver : Option (List Byte)) (bytes : List Byte) : List Byte :=
  match receiver with
  | none => bytes
  | some taken => 0x5B#8 :: (taken ++ bytes)

/-- The inter-byte timeout (R192): in FRAME, the frame is discarded, CTL_TIMEOUT latches and the receiver enters HUNT. In HUNT no
timeout runs. -/
def interByteTimeout (s : State) : State :=
  match s.ctl.receiver with
  | none => s
  | some _ => occur .ctlTimeout none (s.mapCtl fun c => { c with receiver := none })

end Sys2Proof.Machine
end

