-- ==== Sys2Proof/Machine/Events.lean ====
section
/-!
DEFINITION. The rows of the table that are events: sample arrivals, timing-link frames, the clock's departures, converter pulses,
what the builder and the outbound link do, the completion of rset, and the bytes of the control link. Before each, the Control Port
does what it does between events (R194).
-/

namespace Sys2Proof.Machine

/-! ## Sample arrivals -/

/-- SAMPLE_ARRIVAL (R2). -/
def execSampleArrival (x : Samples) (s : State) : Host.Outcome State Fault Refusal :=
  .next (duringEvent (sampleArrival x) s)

/-- PRIMING_COMPLETE (R44): the sample arrival that brings the fill count to L. -/
def execPrimingComplete (x : Samples) (s : State) : Host.Outcome State Fault Refusal :=
  .next (duringEvent (fun s => sampleWhen (primingDue s) x s) s)

/-- BLOCK_COMPLETE (R79): the sample arrival at which an accumulator reaches 2^m samples. -/
def execBlockComplete (x : Samples) (s : State) : Host.Outcome State Fault Refusal :=
  .next (duringEvent (fun s => sampleWhen (blockDue x s) x s) s)

/-- TRIM_ROUND_COMPLETE (R85): the 320th sample arrival of a round. -/
def execTrimRoundComplete (x : Samples) (s : State) : Host.Outcome State Fault Refusal :=
  .next (duringEvent (fun s => sampleWhen (roundDue s) x s) s)

/-- MANUAL_SETTLE_EXPIRY (R94): the sample arrival that brings the settle count to 0. -/
def execManualSettleExpiry (x : Samples) (s : State) : Host.Outcome State Fault Refusal :=
  .next (duringEvent (fun s => sampleWhen (settleDue s) x s) s)

/-- TRMS_COMPLETE (R95): the 256th summed sample arrival. -/
def execTrmsComplete (x : Samples) (s : State) : Host.Outcome State Fault Refusal :=
  .next (duringEvent (fun s => sampleWhen (trmsDue s) x s) s)

/-! ## Timing-link frames -/

/-- TIMING_FRAME (R22). -/
def execTimingFrame (f : Byte) (s : State) : Host.Outcome State Fault Refusal :=
  .next (duringEvent (timingFrame f) s)

/-- LINK_LOCK (R24): the frame that brings the run count to 64. -/
def execLinkLock (f : Byte) (s : State) : Host.Outcome State Fault Refusal :=
  .next (duringEvent (fun s => frameWhen (lockDue f s) f s) s)

/-- LINK_LOSS (R25): the frame that brings the failure count to 8. -/
def execLinkLoss (f : Byte) (s : State) : Host.Outcome State Fault Refusal :=
  .next (duringEvent (fun s => frameWhen (lossDue f s) f s) s)

/-- DELAY_EXPIRY (R167): the frame whose crossing arrival ends the delay. -/
def execDelayExpiry (f : Byte) (s : State) : Host.Outcome State Fault Refusal :=
  .next (duringEvent (fun s => frameWhen (delayDue s) f s) s)

/-- PULSE_FIRING (R168): the frame whose crossing arrival ends the spacing. -/
def execPulseFiring (f : Byte) (s : State) : Host.Outcome State Fault Refusal :=
  .next (duringEvent (fun s => frameWhen (firingDue s) f s) s)

/-- PENDING_PULSE_EXPIRY (R171): the frame whose crossing arrival expires a pending pulse. -/
def execPendingPulseExpiry (f : Byte) (s : State) : Host.Outcome State Fault Refusal :=
  .next (duringEvent (fun s => frameWhen (expiryDue s) f s) s)

/-- LOCK_ACQUIRED (R35): the frame whose crossing arrival brings the lock counter to 2048. -/
def execLockAcquired (f : Byte) (s : State) : Host.Outcome State Fault Refusal :=
  .next (duringEvent (fun s => frameWhen (clockLockDue s) f s) s)

/-- SETTLE_EXPIRY (R176): the frame whose crossing arrival opens the gate. -/
def execSettleExpiry (f : Byte) (s : State) : Host.Outcome State Fault Refusal :=
  .next (duringEvent (fun s => frameWhen (scanSettleDue s) f s) s)

/-- GATE_EXPIRY (R177): the frame whose crossing arrival ends the gate. -/
def execGateExpiry (f : Byte) (s : State) : Host.Outcome State Fault Refusal :=
  .next (duringEvent (fun s => frameWhen (gateDue s) f s) s)

/-- STALL_TIMEOUT (R159): the frame whose crossing arrival latches RL_STALL. -/
def execStallTimeout (f : Byte) (s : State) : Host.Outcome State Fault Refusal :=
  .next (duringEvent (fun s => frameWhen (stallDue s) f s) s)

/-! ## The clock and the converters -/

/-- PHASE_SLIP (R36). -/
def execPhaseSlip (s : State) : Host.Outcome State Fault Refusal :=
  .next (duringEvent phaseSlip s)

/-- CROSSING_CLOCK_LOSS (R23). With no crossing clock there is none to lose. -/
def execCrossingClockLoss (s : State) : Host.Outcome State Fault Refusal :=
  .next (duringEvent clockLoss s)

/-- CONVERTER_PULSE (R176). -/
def execConverterPulse (c : Chan) (s : State) : Host.Outcome State Fault Refusal :=
  .next (duringEvent (converterPulse c) s)

/-! ## The builder, the outbound link and rset -/

/-- RECORD_START (R141). A record start follows in the same event that brings an IDLE builder and a record together, so that
between commands there is none left to make (assumption log 2). -/
def execRecordStart (s : State) : Host.Outcome State Fault Refusal :=
  .next (duringEvent recordStart s)

/-- ENTRY_COMPLETION (R125). With no entry in flight there is none to complete. -/
def execEntryCompletion (s : State) : Host.Outcome State Fault Refusal :=
  .next (duringEvent completeEntry s)

/-- FRAGMENT_APPEND (R145). A READY fragment that fits is appended in the same event that made it READY or made the room, so
that between commands there is none left to append (assumption log 2). -/
def execFragmentAppend (s : State) : Host.Outcome State Fault Refusal :=
  .next (duringEvent fragmentAppend s)

/-- DRAIN_COMPLETE (R48). The events that can make the three true make the test themselves, so that between commands there is
nothing left for it to find (assumption log 2). -/
def execDrainComplete (s : State) : Host.Outcome State Fault Refusal :=
  .next (duringEvent drainTest s)

/-- CREDIT_FRAME (R156). -/
def execCreditFrame (w : LinkWord) (s : State) : Host.Outcome State Fault Refusal :=
  .next (duringEvent (creditFrame w) s)

/-- FRAME_BOUNDARY (R153). Where it completes an rset, the reply is sent in the same event (R49). -/
def execFrameBoundary (s : State) : Host.Outcome State Fault Refusal :=
  .next (duringEvent (fun s => completeRset (frameBoundary s)) s)

/-- BLOCK_COMPLETION (R155). With no block begun there is none to complete. Where it completes an rset, the reply is sent in the
same event (R49). -/
def execBlockCompletion (s : State) : Host.Outcome State Fault Refusal :=
  .next (duringEvent (fun s => completeRset (completeBlock s)) s)

/-- RSET_COMPLETE (R49). The event that makes an rset complete answers it, so that between commands there is none left to
complete (assumption log 2). -/
def execRsetComplete (s : State) : Host.Outcome State Fault Refusal :=
  .next (duringEvent completeRset s)

/-! ## Bytes of the control link -/

/-- What becomes of what the receiver found: CTL_CRC for a discarded frame; a complete one is executed at once by a free port, and
otherwise joins the receive buffer (R192 to R194). -/
def takeFound (s : State) (f : Found) : State :=
  match f with
  | .discarded => duringEvent (occur .ctlCrc none) s
  | .complete g => duringEvent (fun s => if portFree s then runRequest (commandOf g) s else receiveFrame g s) s

/-- The receiver goes into HUNT, or into FRAME with the bytes taken (R192). -/
def setReceiver (r : Option (List Byte)) (s : State) : State := s.mapCtl fun c => { c with receiver := r }

/-- Bytes arrive on the control link (R192, R193). The receiver is in HUNT whenever a frame ends, and is left with the bytes of
a frame that has begun. Each frame that ends is an event; bytes that end none are no event to the rest of the part. -/
def receiveBytes (bytes : List Byte) (s : State) : State :=
  let all := stream s.ctl.receiver bytes
  let (found, left) := hunt all.length all
  setReceiver left (found.foldl takeFound (setReceiver none s))

/-- REQUEST_FRAME (R193): bytes of the control link arrive, a request frame whole or in part. -/
def execRequestFrame (bytes : List Byte) (s : State) : Host.Outcome State Fault Refusal := .next (receiveBytes bytes s)

/-- INTER_BYTE_TIMEOUT (R192). -/
def execInterByteTimeout (s : State) : Host.Outcome State Fault Refusal :=
  .next (duringEvent interByteTimeout s)

end Sys2Proof.Machine
end

