-- ==== Sys2Proof/Machine/Requests.lean ====
section
/-!
DEFINITION. The rows of the table that are requests of the control link, each as the complete frame of that name arriving at the
Control Port (R193, R194).
-/

namespace Sys2Proof.Machine

/-! ## Channels and samples -/

/-- CHAN. -/
def execChan (r : Request) (s : State) : Host.Outcome State Fault Refusal :=
  .next (serve 0x6368616E#32 false r chanBody s)

/-- PIPE. -/
def execPipe (r : Request) (s : State) : Host.Outcome State Fault Refusal :=
  .next (serve 0x70697065#32 false r pipeBody s)

/-- FRZE. -/
def execFrze (r : Request) (s : State) : Host.Outcome State Fault Refusal :=
  .next (serve 0x66727A65#32 false r frzeBody s)

/-- THAW. -/
def execThaw (r : Request) (s : State) : Host.Outcome State Fault Refusal :=
  .next (serve 0x74686177#32 false r thawBody s)

/-- PEEK. -/
def execPeek (r : Request) (s : State) : Host.Outcome State Fault Refusal :=
  .next (serve 0x7065656B#32 false r peekBody s)

/-! ## Timing link and sample clock -/

/-- TURN. -/
def execTurn (r : Request) (s : State) : Host.Outcome State Fault Refusal :=
  .next (serve 0x7475726E#32 false r turnBody s)

/-- CLKS. -/
def execClks (r : Request) (s : State) : Host.Outcome State Fault Refusal :=
  .next (serve 0x636C6B73#32 false r clksBody s)

/-! ## Acquisition -/

/-- STRT. -/
def execStrt (r : Request) (s : State) : Host.Outcome State Fault Refusal :=
  .next (serve 0x73747274#32 false r strtBody s)

/-- STOP. -/
def execStop (r : Request) (s : State) : Host.Outcome State Fault Refusal :=
  .next (serve 0x73746F70#32 false r stopBody s)

/-- RSET. -/
def execRset (r : Request) (s : State) : Host.Outcome State Fault Refusal :=
  .next (serve 0x72736574#32 true r rsetBody s)

/-! ## Accepts -/

/-- RULE. -/
def execRule (r : Request) (s : State) : Host.Outcome State Fault Refusal :=
  .next (serve 0x72756C65#32 false r ruleBody s)

/-- BUSY. -/
def execBusy (r : Request) (s : State) : Host.Outcome State Fault Refusal :=
  .next (serve 0x62757379#32 false r busyBody s)

/-! ## Pedestals -/

/-- TRKS. -/
def execTrks (r : Request) (s : State) : Host.Outcome State Fault Refusal :=
  .next (serve 0x74726B73#32 false r trksBody s)

/-- PEDL. -/
def execPedl (r : Request) (s : State) : Host.Outcome State Fault Refusal :=
  .next (serve 0x7065646C#32 false r pedlBody s)

/-! ## Trims -/

/-- TRML. -/
def execTrml (r : Request) (s : State) : Host.Outcome State Fault Refusal :=
  .next (serve 0x74726D6C#32 false r trmlBody s)

/-- TRMR. -/
def execTrmr (r : Request) (s : State) : Host.Outcome State Fault Refusal :=
  .next (serve 0x74726D72#32 false r trmrBody s)

/-- TREN. -/
def execTren (r : Request) (s : State) : Host.Outcome State Fault Refusal :=
  .next (serve 0x7472656E#32 false r trenBody s)

/-- TRST. -/
def execTrst (r : Request) (s : State) : Host.Outcome State Fault Refusal :=
  .next (serve 0x74727374#32 true r trstBody s)

/-- TRMS. -/
def execTrms (r : Request) (s : State) : Host.Outcome State Fault Refusal :=
  .next (serve 0x74726D73#32 true r trmsBody s)

/-- TREX. -/
def execTrex (r : Request) (s : State) : Host.Outcome State Fault Refusal :=
  .next (serve 0x74726578#32 true r trexBody s)

/-! ## Filter sets -/

/-- FILT. -/
def execFilt (r : Request) (s : State) : Host.Outcome State Fault Refusal :=
  .next (serve 0x66696C74#32 false r filtBody s)

/-! ## The Readout List -/

/-- LCLR. -/
def execLclr (r : Request) (s : State) : Host.Outcome State Fault Refusal :=
  .next (serve 0x6C636C72#32 false r lclrBody s)

/-- LAPP. -/
def execLapp (r : Request) (s : State) : Host.Outcome State Fault Refusal :=
  .next (serve 0x6C617070#32 false r lappBody s)

/-- LINS. -/
def execLins (r : Request) (s : State) : Host.Outcome State Fault Refusal :=
  .next (serve 0x6C696E73#32 false r linsBody s)

/-- LREM. -/
def execLrem (r : Request) (s : State) : Host.Outcome State Fault Refusal :=
  .next (serve 0x6C72656D#32 false r lremBody s)

/-- LREP. -/
def execLrep (r : Request) (s : State) : Host.Outcome State Fault Refusal :=
  .next (serve 0x6C726570#32 false r lrepBody s)

/-- LRDS. -/
def execLrds (r : Request) (s : State) : Host.Outcome State Fault Refusal :=
  .next (serve 0x6C726473#32 false r lrdsBody s)

/-- LCOM. -/
def execLcom (r : Request) (s : State) : Host.Outcome State Fault Refusal :=
  .next (serve 0x6C636F6D#32 false r lcomBody s)

/-! ## Readout -/

/-- SRCI. -/
def execSrci (r : Request) (s : State) : Host.Outcome State Fault Refusal :=
  .next (serve 0x73726369#32 false r srciBody s)

/-- STLM. -/
def execStlm (r : Request) (s : State) : Host.Outcome State Fault Refusal :=
  .next (serve 0x73746C6D#32 false r stlmBody s)

/-! ## The Charge Injector -/

/-- INJS. -/
def execInjs (r : Request) (s : State) : Host.Outcome State Fault Refusal :=
  .next (serve 0x696E6A73#32 false r injsBody s)

/-- INJA. -/
def execInja (r : Request) (s : State) : Host.Outcome State Fault Refusal :=
  .next (serve 0x696E6A61#32 false r injaBody s)

/-- INJD. -/
def execInjd (r : Request) (s : State) : Host.Outcome State Fault Refusal :=
  .next (serve 0x696E6A64#32 false r injdBody s)

/-- INJF. -/
def execInjf (r : Request) (s : State) : Host.Outcome State Fault Refusal :=
  .next (serve 0x696E6A66#32 false r injfBody s)

/-! ## The Slow Integrator Monitor -/

/-- INTS. -/
def execInts (r : Request) (s : State) : Host.Outcome State Fault Refusal :=
  .next (serve 0x696E7473#32 false r intsBody s)

/-- INTL. -/
def execIntl (r : Request) (s : State) : Host.Outcome State Fault Refusal :=
  .next (serve 0x696E746C#32 false r intlBody s)

/-- INTR. -/
def execIntr (r : Request) (s : State) : Host.Outcome State Fault Refusal :=
  .next (serve 0x696E7472#32 false r intrBody s)

/-- INTX. -/
def execIntx (r : Request) (s : State) : Host.Outcome State Fault Refusal :=
  .next (serve 0x696E7478#32 false r intxBody s)

/-! ## Conditions and counters -/

/-- CMAP. -/
def execCmap (r : Request) (s : State) : Host.Outcome State Fault Refusal :=
  .next (serve 0x636D6170#32 false r cmapBody s)

/-- CCLR. -/
def execCclr (r : Request) (s : State) : Host.Outcome State Fault Refusal :=
  .next (serve 0x63636C72#32 false r cclrBody s)

/-- COND. -/
def execCond (r : Request) (s : State) : Host.Outcome State Fault Refusal :=
  .next (serve 0x636F6E64#32 true r condBody s)

/-- CNTR. -/
def execCntr (r : Request) (s : State) : Host.Outcome State Fault Refusal :=
  .next (serve 0x636E7472#32 false r cntrBody s)

/-! ## Unknown commands, status and identity -/

/-- UNKNOWN_COMMAND (R195). A name that is one of the part's commands makes no request of this kind, and nothing happens
(assumption log 2). -/
def execUnknownCommand (name : BitVec 32) (r : Request) (s : State) : Host.Outcome State Fault Refusal :=
  if isCommandName name then .next s else .next (serve name true r unknownBody s)

/-- STAT. -/
def execStat (r : Request) (s : State) : Host.Outcome State Fault Refusal :=
  .next (serve 0x73746174#32 true r statBody s)

/-- IDNT. -/
def execIdnt (r : Request) (s : State) : Host.Outcome State Fault Refusal :=
  .next (serve 0x69646E74#32 true r idntBody s)

end Sys2Proof.Machine
end

