-- ==== Sys2Proof/Machine/Dispatch.lean ====
section
/-!
DEFINITION. The dispatch: one arm per command, each one direct call of the command's meaning.
-/

namespace Sys2Proof.Machine

/-- The effect of a command on everything but the queue of commands. -/
def exec (i : Instr) (s : State) : Host.Outcome State Fault Refusal :=
  match i with
  | .powerOn => Sys2Proof.Machine.execPowerOn s
  | .sampleArrival x => Sys2Proof.Machine.execSampleArrival x s
  | .primingComplete x => Sys2Proof.Machine.execPrimingComplete x s
  | .blockComplete x => Sys2Proof.Machine.execBlockComplete x s
  | .timingFrame f => Sys2Proof.Machine.execTimingFrame f s
  | .linkLock f => Sys2Proof.Machine.execLinkLock f s
  | .linkLoss f => Sys2Proof.Machine.execLinkLoss f s
  | .delayExpiry f => Sys2Proof.Machine.execDelayExpiry f s
  | .pulseFiring f => Sys2Proof.Machine.execPulseFiring f s
  | .pendingPulseExpiry f => Sys2Proof.Machine.execPendingPulseExpiry f s
  | .lockAcquired f => Sys2Proof.Machine.execLockAcquired f s
  | .phaseSlip => Sys2Proof.Machine.execPhaseSlip s
  | .crossingClockLoss => Sys2Proof.Machine.execCrossingClockLoss s
  | .settleExpiry f => Sys2Proof.Machine.execSettleExpiry f s
  | .converterPulse c => Sys2Proof.Machine.execConverterPulse c s
  | .gateExpiry f => Sys2Proof.Machine.execGateExpiry f s
  | .stallTimeout f => Sys2Proof.Machine.execStallTimeout f s
  | .creditFrame w => Sys2Proof.Machine.execCreditFrame w s
  | .frameBoundary => Sys2Proof.Machine.execFrameBoundary s
  | .blockCompletion => Sys2Proof.Machine.execBlockCompletion s
  | .recordStart => Sys2Proof.Machine.execRecordStart s
  | .entryCompletion => Sys2Proof.Machine.execEntryCompletion s
  | .fragmentAppend => Sys2Proof.Machine.execFragmentAppend s
  | .drainComplete => Sys2Proof.Machine.execDrainComplete s
  | .trimRoundComplete x => Sys2Proof.Machine.execTrimRoundComplete x s
  | .manualSettleExpiry x => Sys2Proof.Machine.execManualSettleExpiry x s
  | .trmsComplete x => Sys2Proof.Machine.execTrmsComplete x s
  | .rsetComplete => Sys2Proof.Machine.execRsetComplete s
  | .requestFrame bytes => Sys2Proof.Machine.execRequestFrame bytes s
  | .interByteTimeout => Sys2Proof.Machine.execInterByteTimeout s
  | .unknownCommand name r => Sys2Proof.Machine.execUnknownCommand name r s
  | .chan r => Sys2Proof.Machine.execChan r s
  | .pipe r => Sys2Proof.Machine.execPipe r s
  | .frze r => Sys2Proof.Machine.execFrze r s
  | .thaw r => Sys2Proof.Machine.execThaw r s
  | .peek r => Sys2Proof.Machine.execPeek r s
  | .turn r => Sys2Proof.Machine.execTurn r s
  | .clks r => Sys2Proof.Machine.execClks r s
  | .strt r => Sys2Proof.Machine.execStrt r s
  | .stop r => Sys2Proof.Machine.execStop r s
  | .rset r => Sys2Proof.Machine.execRset r s
  | .rule r => Sys2Proof.Machine.execRule r s
  | .busy r => Sys2Proof.Machine.execBusy r s
  | .trks r => Sys2Proof.Machine.execTrks r s
  | .pedl r => Sys2Proof.Machine.execPedl r s
  | .trml r => Sys2Proof.Machine.execTrml r s
  | .trmr r => Sys2Proof.Machine.execTrmr r s
  | .tren r => Sys2Proof.Machine.execTren r s
  | .trst r => Sys2Proof.Machine.execTrst r s
  | .trms r => Sys2Proof.Machine.execTrms r s
  | .trex r => Sys2Proof.Machine.execTrex r s
  | .filt r => Sys2Proof.Machine.execFilt r s
  | .lclr r => Sys2Proof.Machine.execLclr r s
  | .lapp r => Sys2Proof.Machine.execLapp r s
  | .lins r => Sys2Proof.Machine.execLins r s
  | .lrem r => Sys2Proof.Machine.execLrem r s
  | .lrep r => Sys2Proof.Machine.execLrep r s
  | .lrds r => Sys2Proof.Machine.execLrds r s
  | .lcom r => Sys2Proof.Machine.execLcom r s
  | .srci r => Sys2Proof.Machine.execSrci r s
  | .stlm r => Sys2Proof.Machine.execStlm r s
  | .injs r => Sys2Proof.Machine.execInjs r s
  | .inja r => Sys2Proof.Machine.execInja r s
  | .injd r => Sys2Proof.Machine.execInjd r s
  | .injf r => Sys2Proof.Machine.execInjf r s
  | .ints r => Sys2Proof.Machine.execInts r s
  | .intl r => Sys2Proof.Machine.execIntl r s
  | .intr r => Sys2Proof.Machine.execIntr r s
  | .intx r => Sys2Proof.Machine.execIntx r s
  | .cmap r => Sys2Proof.Machine.execCmap r s
  | .cclr r => Sys2Proof.Machine.execCclr r s
  | .cntr r => Sys2Proof.Machine.execCntr r s
  | .cond r => Sys2Proof.Machine.execCond r s
  | .stat r => Sys2Proof.Machine.execStat r s
  | .idnt r => Sys2Proof.Machine.execIdnt r s

end Sys2Proof.Machine
end

