-- ==== Sys2Proof/Machine/Step.lean ====
section
/-!
DEFINITION. One step of the part: the command at the front of the queue takes effect on the state with the queue's rest; with no
command waiting, time passes in which no event comes (assumption log 1).
-/

namespace Sys2Proof.Machine

/-- One step. -/
def step (s : State) : Host.Outcome State Fault Refusal :=
  match s.pending with
  | [] => .next (idleTime s)
  | c :: rest => exec c (s.mapPending fun _ => rest)

/-- The state with the command that a table word spells at the front of its queue; unchanged where the word spells none, and
no row of the table gives bits. -/
def State.withFetchWord (s : State) (nbits w : Nat) : State :=
  match decodeTableWord nbits w with
  | some c => s.mapPending fun q => c :: q
  | none => s

end Sys2Proof.Machine
end

