-- ==== Sys2Proof/Safety.lean ====
section
/-!
DEFINITION. What a safe state of the P1624 is, in the terms the statements use: the rules that hold of the whole part in
every state a step leaves (each citing the rule that says so), when the Control Port executes a request at once and when it
is quiet, the legal values of the records that requests carry, and the bytes of a request frame.
-/

namespace Sys2Proof.Machine

/-! ## Rules of the whole part -/

/-- Acquisition is SUSPENDED exactly when class 3 is raised and acquisition is neither STANDBY nor DRAINING (R46). -/
def SuspendRule (s : State) : Prop :=
  s.acq.state = .suspended ↔ (class3 s = true ∧ s.acq.state ≠ .standby ∧ s.acq.state ≠ .draining)

/-- Every ring is in its canonical form (the model's own form of the store of R6): listed positions rise, lie below 512,
and hold no cleared slot. -/
def RingsCanonical (s : State) : Prop := ∀ c : Chan, ringWf s.pipe.chans[c].ring = true

/-- In every state but STANDBY the start copy equals L, N and S, and every enabled channel's filter sets have length N
(R43). -/
def RunSettled (s : State) : Prop :=
  s.acq.state ≠ .standby →
    s.acq.startL = s.pipe.latency ∧ s.acq.startN = s.pipe.window ∧ s.acq.startS = s.clk.s ∧
      ∀ c : Chan, s.front.recs[c].enable = true →
        s.filt.sets[s.front.recs[c].hgSet].length = s.pipe.window ∧
          s.filt.sets[s.front.recs[c].lgSet].length = s.pipe.window

/-- ACC_SEEN equals REC_MADE plus ACC_NOREC, modulo 2^32 (R74). -/
def AcceptsBalance (s : State) : Prop :=
  s.cond.counters.accSeen = s.cond.counters.recMade + s.cond.counters.accNoRec

/-- No store holds more than it can: 32 records (R54), K serials of rule history (R56), 32 entries a list copy (R126), 4096
words of output buffer (R151), 15 credits (R157), 8 pulse records (R169), 2 request frames (R193). -/
def WithinCapacity (s : State) : Prop :=
  s.aq.records.length ≤ 32 ∧ s.aq.history.length ≤ s.aq.ruleK ∧ s.list.staged.length ≤ 32 ∧ s.list.active.length ≤ 32 ∧
    s.tx.buffer.length ≤ 4096 ∧ s.tx.credits ≤ 15 ∧ s.inj.pending.length ≤ 8 ∧ s.ctl.buffer.length ≤ 2

/-- The snapshot slot of a record, if it has one. -/
def RecordKind.slot? : RecordKind → Option (Fin 16)
  | .full k => some k
  | .nosnap _ => none

/-- The snapshot slots the records of the list hold, oldest record first. -/
def heldSlots (s : State) : List (Fin 16) := s.aq.records.filterMap fun r => r.kind.slot?

/-- The held slots are the slots of the records in the list, each held by one record (R54, R63). -/
def SlotsHeld (s : State) : Prop :=
  (heldSlots s).Nodup ∧ ∀ k : Fin 16, s.aq.snaps[k].isSome = true ↔ k ∈ heldSlots s

/-- The fill count is at most 512, and no refill count exceeds it (R11, R12). -/
def FillBounded (s : State) : Prop := s.pipe.fill ≤ 512 ∧ ∀ c : Chan, s.pipe.chans[c].refill ≤ s.pipe.fill

/-- The throttle is on throughout a suspension (R69, R70). -/
def SuspendedThrottled (s : State) : Prop := s.acq.state = .suspended → s.aq.throttle = true

/-- In STANDBY the record list is empty and the Fragment Builder IDLE (R48, R50, R51). -/
def StandbyEmpty (s : State) : Prop := s.acq.state = .standby → s.aq.records = [] ∧ s.builder.state = .idle

/-- Between commands the builder has nothing left to do of itself: an IDLE builder finds no record (R141), a build has an
entry in flight (R142, R143), and a READY fragment does not fit (R145). -/
def BuilderSettled (s : State) : Prop :=
  match s.builder.state with
  | .idle => s.aq.records = [] ∧ s.builder.inFlight = none
  | .building _ => s.builder.inFlight.isSome = true
  | .ready b => fits b s = false ∧ s.builder.inFlight = none

/-- The emitted and the suppressed count of a build add up to the entries taken so far (R142). -/
def BuildCounted (s : State) : Prop :=
  match s.builder.state with
  | .idle => True
  | .building b => b.emitted + b.suppressed = b.position
  | .ready b => b.emitted + b.suppressed = b.position

/-- Between commands a part in DRAINING still owes something: the test for the end of draining has been made (R48). -/
def DrainTested (s : State) : Prop := s.acq.state = .draining → drained s = false

/-- Outside STANDBY the Trim Engine is IDLE: long trims and manual trim mode are STANDBY work (R41, R84, R92, R93). -/
def TrimInStandby (s : State) : Prop := s.acq.state ≠ .standby → s.trim.engine = .idle

/-- A channel-gain still in progress in a long trim has its second finishing round to come or under way: the round is at most
its search rounds and one (R86 to R88). -/
def SearchesInRound (s : State) : Prop :=
  ∀ t : LongTrim, s.trim.engine = .long t →
    ∀ (c : Chan) (g : Gain) (q : Search), t.searches[c].get g = some q → t.round ≤ q.rounds + 1

/-- Between commands no rset that is complete waits to be answered (R49), and no frame waits at a free port (R194). -/
def PortSettled (s : State) : Prop := rsetDue s = false ∧ (s.ctl.executing = .none → s.ctl.buffer = [])

/-! ## When a request executes at once -/

/-- No request is in execution, no reply is on its way and no frame waits, so a request that arrives is executed at once (R194). -/
def PortIdle (s : State) : Prop := s.ctl.executing = .none ∧ s.ctl.buffer = []

/-- No reply is on its way and no frame can be executed, so the port does nothing before the next event: it is free and holds no
frame, or a trms or an rset is in execution (R194). -/
def PortQuiet (s : State) : Prop :=
  match s.ctl.executing with
  | .none => s.ctl.buffer = []
  | .trms _ => True
  | .rset _ _ => True
  | .cclr _ _ => False
  | .sending _ => False

/-- The port is idle and the Trim Engine is not in manual trim mode, which refuses most commands (R93). -/
def TakesRequests (s : State) : Prop := PortIdle s ∧ inManual s = false

/-- What a reply does to the Control Port (R191, R194): it is formed with the class summary the state it leaves holds, and the port
is sending it. -/
def Replies (tag : Byte) (status : Status) (payload : List Byte) (s t : State) : Prop :=
  ∃ n, t.ctl = { s.ctl with
    sent := s.ctl.sent ++ [replyFrame tag status t.cond.summary payload], executing := .sending n }

/-- The commands manual trim mode takes: trst, trms, trex, stat, idnt, cond and rset (R93). -/
def manualNames : List (BitVec 32) :=
  [0x74727374#32, 0x74726D73#32, 0x74726578#32, 0x73746174#32, 0x69646E74#32, 0x636F6E64#32, 0x72736574#32]

/-- The bytes of a request frame (R191, R199): start byte, length, tag, name, payload, check. -/
def requestBytes (f : Frame) : List Byte :=
  let body := u8 (5 + f.payload.length) ++ [f.tag] ++ u32 f.name.toNat ++ f.payload
  0x5B#8 :: (body ++ crcBytes body)

/-! ## Arrivals that the statements name -/

/-- The slot of channel c that this sample arrival writes counts for the tracker (R78): the channel is enabled, unfrozen and
tracked, the aligned flag is set and the crossing quiet (R29, R30), the codes do not clip, and neither INJ nor TRIMSTEP marks the
slot. -/
def SampleCounts (x : Samples) (s : State) (c : Chan) : Prop :=
  (s.acq.state = .priming ∨ s.acq.state = .running ∨ s.acq.state = .suspended) ∧ s.clk.state = .locked ∧
    s.timing.aligned = true ∧ s.timing.quiet = true ∧ s.ped.chans[c].tracking = true ∧ s.pipe.chans[c].frozen = false ∧
    s.front.recs[c].enable = true ∧ x[c].hg ≠ 4095 ∧ x[c].lg ≠ 4095 ∧ s.pipe.chans[c].injCount = 0 ∧
    s.pipe.chans[c].trimStepCount = 0

/-- A frame that carries no command that acts. -/
def NoCommands (f : Byte) (s : State) : Prop := s.timing.link ≠ .locked ∨ frameGood f = false ∨ f = 0x0F

/-- A frame that passes in LOCKED and whose accept is all it brings about: no TURNMARK and no PULSEREQ, and its crossing arrival
ends no gate, fires or expires no pulse, and brings the stall timer to no top. -/
def AcceptAlone (f : Byte) (s : State) : Prop :=
  s.timing.link = .locked ∧ frameGood f = true ∧ frameAccept f = true ∧ frameTurnmark f = false ∧
    framePulsereq f = false ∧ (∀ (c : Chan) (n : Nat), s.integ.scan = .gate c n → 2 ≤ n) ∧
    (s.inj.state = .disarmed ∨ s.inj.state = .armed) ∧
    (∀ p ∈ s.inj.pending, expired (lookBack s.acq) (s.timing.serial + 1) p = false) ∧
    (s.tx.stallMark = true ∨ s.tx.stallTimer + 1 < s.tx.stallLimit * 256)

/-- What the departure of the clock from LOCKED leaves (R13, R37, R45, R172, R180): the counts of the pipeline at 0 with rings,
w, newest indices and freeze flags kept; RUNNING turned to PRIMING unless the departure itself raises class 3, and other
states kept; the injector DISARMED with its pending list kept; the scan IDLE with its readings kept, and its measurement counter too (assumption
log 36). -/
def Departed (s t : State) : Prop :=
  t.pipe = { s.pipe with
    fill := 0,
    chans := Vector.ofFn fun c => { s.pipe.chans[c] with refill := 0, injCount := 0, trimStepCount := 0 } } ∧
  (class3 t = class3 s →
    t.acq = { s.acq with state := if s.acq.state = .running then .priming else s.acq.state }) ∧
  t.inj = { s.inj with state := .disarmed } ∧ t.integ = { s.integ with scan := .idle } ∧ t.front = s.front ∧
  t.ped = s.ped ∧ t.filt = s.filt ∧ t.list = s.list ∧ t.builder = s.builder ∧ t.aq.records = s.aq.records ∧
  t.aq.snaps = s.aq.snaps ∧ t.tx.buffer = s.tx.buffer ∧ t.trim.gains = s.trim.gains

/-! ## Legal values of what a request carries -/

/-- The ranges of a channel record (R3). -/
def ChanRec.Legal (r : ChanRec) : Prop :=
  (1024 ≤ r.hgThreshold ∧ r.hgThreshold ≤ 4095) ∧ (1024 ≤ r.lgThreshold ∧ r.lgThreshold ≤ 4095) ∧
    (256 ≤ r.gainRatio ∧ r.gainRatio ≤ 32767)

/-- The ranges of the tracking settings (R75). -/
def TrackSettings.Legal (t : TrackSettings) : Prop :=
  (16 ≤ t.target.hg ∧ t.target.hg ≤ 1023) ∧ (16 ≤ t.target.lg ∧ t.target.lg ≤ 1023) ∧
    (1 ≤ t.hysteresis ∧ t.hysteresis ≤ 64) ∧ (4 ≤ t.blockExp ∧ t.blockExp ≤ 8) ∧ t.updateExp ≤ 7

/-- The ranges of the train settings (R163). -/
def TrainSettings.Legal (t : TrainSettings) : Prop :=
  t.amplitude ≤ 1023 ∧ t.delay ≤ 255 ∧ (1 ≤ t.count ∧ t.count ≤ 16) ∧ (1 ≤ t.spacing ∧ t.spacing ≤ 255)

/-- The ranges of the scan settings (R174, R175). -/
def ScanSettings.Legal (t : ScanSettings) : Prop :=
  t.startChan ≤ t.endChan ∧ 16 ≤ t.gateLength ∧ t.gateLength ≤ 65535

/-- The ranges of a list entry (R127). -/
def Entry.Legal (e : Entry) : Prop :=
  e.threshold ≤ 8388607 ∧ e.timeThreshold ≤ 8388607 ∧ e.peakLo ≤ e.peakHi ∧ e.peakHi ≤ 15

end Sys2Proof.Machine
end

