-- ==== Sys2Proof/Certificates/Slice0/Obligations.lean ====
section
/-!
DEFINITION. The statements about the P1624 that provers are asked to prove, one definition each; OBLIGATIONS.json lists them
with the rules they rest on. An equation `exec c s = .next t` says that the command completes and, since t is s with the
named fields changed, that nothing else changes. Before an event the Control Port does what it does between events (R194): where
the statement of an event takes a state s0, s stands for the state the port leaves before the event, `beforeEvent s0`, which is
said once, in HeldRequestsWaitAndExecute, and is s0 itself at a quiet port.
-/

section Statements

open Sys2Proof Sys2Proof.Machine

/-! ## The whole part -/

/-- The command at the front of the queue takes effect on the state with the queue's rest. With no command waiting, time
passes in which no event comes: the reply of an executed cclr is formed, or the last byte of the reply being sent goes and the
oldest frame held is executed, or the part idles (assumption log 1). -/
def Obligations.StepTakesFrontCommand : Prop :=
  (∀ (c : Instr) (s : State), step { s with pending := c :: s.pending } = exec c s) ∧
  (∀ s : State, s.pending = [] →
    (PortQuiet s → step s = .next s) ∧
    (∀ (tag : Byte) (n : Nat), s.ctl.executing = .cclr tag n → ∃ left : BitVec 32,
      step s = .next (answer tag .ok (u32 left.toNat) s) ∧ left.toNat < 2 ^ 25 ∧
        ∀ i : Fin 25, left.getLsbD i.val = s.cond.recs[i].latch) ∧
    (∀ n : Nat, s.ctl.executing = .sending n → s.ctl.buffer = [] →
      step s = .next { s with ctl := { s.ctl with executing := .none } }) ∧
    (∀ (n : Nat) (f : Frame) (rest : List Frame) (u : State), s.ctl.executing = .sending n → s.ctl.buffer = f :: rest →
      exec (commandOf f) { s with ctl := { s.ctl with executing := .none, buffer := [] } } = .next u →
      step s = .next { u with ctl := { u.ctl with buffer := rest } }))

/-- No command faults and none is refused: each answers a next state from every state, with the queue as it was. -/
def Obligations.EveryCommandCompletes : Prop :=
  ∀ (c : Instr) (s : State), ∃ t, exec c s = .next t ∧ t.pending = s.pending

/-- R46: acquisition is SUSPENDED exactly when class 3 is raised outside STANDBY and DRAINING, and every step keeps it so. -/
def Obligations.StepKeepsSuspendRule : Prop :=
  ∀ s t : State, SuspendRule s → step s = .next t → SuspendRule t

/-- Every step keeps every ring in its canonical form. -/
def Obligations.StepKeepsRingsCanonical : Prop :=
  ∀ s t : State, RingsCanonical s → step s = .next t → RingsCanonical t

/-- R43: outside STANDBY the start copy equals L, N and S, and every enabled channel's filter sets have length N; and the Trim
Engine works in STANDBY alone (R41, R84, R92, R93); and a channel-gain still in progress in a long trim is at most in its second
finishing round (R86 to R88). Every step keeps each. -/
def Obligations.StepKeepsRunSettled : Prop :=
  (∀ s t : State, RunSettled s → step s = .next t → RunSettled t) ∧
  (∀ s t : State, TrimInStandby s → step s = .next t → TrimInStandby t) ∧
  (∀ s t : State, SearchesInRound s → step s = .next t → SearchesInRound t)

/-- R74: ACC_SEEN equals REC_MADE plus ACC_NOREC modulo 2^32, and every step keeps it so; and every step keeps every store
within its capacity. -/
def Obligations.StepKeepsBalanceAndCapacity : Prop :=
  (∀ s t : State, AcceptsBalance s → step s = .next t → AcceptsBalance t) ∧
  (∀ s t : State, WithinCapacity s → step s = .next t → WithinCapacity t)

/-- R63: the held snapshot slots are those of the records in the list, each held by one record; every step keeps it so. -/
def Obligations.StepKeepsSlotsHeld : Prop :=
  ∀ s t : State, SlotsHeld s → step s = .next t → SlotsHeld t

/-- R12: no refill count exceeds the fill count, which stays at 512 at most; and the throttle is on throughout a suspension
(R69, R70). Every step keeps both. -/
def Obligations.StepKeepsFillAndThrottle : Prop :=
  ∀ s t : State, FillBounded s ∧ SuspendedThrottled s → step s = .next t → FillBounded t ∧ SuspendedThrottled t

/-- Between commands the builder has nothing left to do of itself, and its two counts add up to the entries taken; and no
complete rset waits for its answer, and no frame waits at a free Control Port (R49, R194). Every step keeps them. -/
def Obligations.StepKeepsBuilderSettled : Prop :=
  (∀ s t : State, BuilderSettled s ∧ BuildCounted s → step s = .next t → BuilderSettled t ∧ BuildCounted t) ∧
  (∀ s t : State, PortSettled s → step s = .next t → PortSettled t)

/-- In STANDBY the list is empty and the builder IDLE (R48, R50, R51), and in DRAINING the part still owes something (R48).
Every step keeps both. -/
def Obligations.StepKeepsStandbyAndDraining : Prop :=
  ∀ s t : State, StandbyEmpty s ∧ DrainTested s → step s = .next t → StandbyEmpty t ∧ DrainTested t

/-- Every rule of the whole part holds right after reset. -/
def Obligations.ResetKeepsEveryRule : Prop :=
  SuspendRule State.reset ∧ RingsCanonical State.reset ∧ RunSettled State.reset ∧ AcceptsBalance State.reset ∧
    WithinCapacity State.reset ∧ SlotsHeld State.reset ∧ FillBounded State.reset ∧ SuspendedThrottled State.reset ∧
    BuilderSettled State.reset ∧ BuildCounted State.reset ∧ StandbyEmpty State.reset ∧ DrainTested State.reset ∧
    TrimInStandby State.reset ∧ SearchesInRound State.reset ∧ PortSettled State.reset

/-- Power-on places every block in its power-on state, and these are the values the manual states (R3, R5, R6, R15, R23, R27 to
R30, R32, R34, R40, R54, R75, R83, R98, R126, R140, R151, R157 to R160, R163, R174, R181, R192, R193). The queue of commands,
the transcripts and the index of the free values are the model's own and stay. -/
def Obligations.PowerOnSetsEveryBlock : Prop :=
  ∀ s : State, ∃ t, exec .powerOn s = .next t ∧
    t.acq = { state := .standby, startL := 128, startN := 7, startS := 1 } ∧
    t.clk = { s := 1, phase := 0, state := .unlocked, lockCount := 0 } ∧
    t.timing =
      { link := .noSignal, candidate := 0, lastTaken := 0, runCount := 0, failCount := 0, serial := 0, counter := 0,
        aligned := false, turnLength := 3000, quietFrom := 2880, quietTo := 2999, quiet := false, event := 0 } ∧
    t.aq =
      { records := [], snaps := Vector.replicate 16 none, gap := 0, ruleK := 0, ruleW := 100, degrade := false,
        history := [], throttle := false, hi := 12, lo := 8, recordMark := 0, slotMark := 0 } ∧
    (∀ c : Chan,
      t.front.recs[c] =
        { enable := true, hgThreshold := 4000, lgThreshold := 4000, gainRatio := 8192, hgSet := 0, lgSet := 1 } ∧
      t.front.dacs[c] = ⟨128, 128⟩ ∧
      t.pipe.chans[c] = { ring := [], frozen := false, refill := 0, newest := 511, trimStepCount := 0, injCount := 0 } ∧
      t.ped.chans[c].gains.hg = { p := 3200, sigma := 32, count := 0, sum := 0, blank := false } ∧
      t.ped.chans[c].gains.lg = { p := 3200, sigma := 32, count := 0, sum := 0, blank := false } ∧
      t.ped.chans[c].settings =
        { tracking := true, autoTrim := false, target := ⟨200, 200⟩, hysteresis := 8, blockExp := 6, updateExp := 3 } ∧
      t.trim.gains[c] = ⟨{ first := true, status := .never }, { first := true, status := .never }⟩ ∧
      t.integ.readings[c] = { status := .empty, count := 0, gate := 0, pass := 0, ovf := false, overwritten := false }) ∧
    (t.pipe.w = 0 ∧ t.pipe.fill = 0 ∧ t.pipe.latency = 128 ∧ t.pipe.window = 7) ∧
    t.trim.engine = .idle ∧
    (∀ k : Fin 8, t.filt.sets[k] = ⟨[], []⟩) ∧
    t.list = { staged := [], active := [], pending := false, generation := 0, swap := false } ∧
    t.builder = { state := .idle, inFlight := none } ∧
    t.tx =
      { buffer := [], begun := none, credits := 0, waitingFrame := none, stallTimer := 0, stallMark := false,
        stallLimit := 4096, sourceId := 0, sent := s.tx.sent } ∧
    t.inj =
      { state := .disarmed, mask := 0, amplitude := 0, delay := 0, count := 1, spacing := 1, mode := .oneShot, train := 0,
        pending := [], driven := s.inj.driven } ∧
    (t.integ.settings = { startChan := 0, endChan := 15, mode := .single, gateLength := 4096 } ∧
      t.integ.limit = 16777215 ∧ t.integ.scan = .idle ∧ t.integ.counter = 0 ∧ t.integ.pass = 0) ∧
    (∀ i : Fin 25, t.cond.recs[i].latch = false ∧ t.cond.recs[i].count = 0 ∧ t.cond.recs[i].first = none ∧
      t.cond.recs[i].cls =
        if i ∈ ([0, 3, 4, 10, 12] : List (Fin 25)) then .class2
        else if i ∈ ([5, 6, 7, 8, 9, 11, 18, 21, 23] : List (Fin 25)) then .class1
        else .class0) ∧
    t.cond.counters = Counters.zero ∧
    t.ctl = { receiver := none, buffer := [], executing := .none, sent := s.ctl.sent } ∧
    t.freeIndex = s.freeIndex ∧ t.pending = s.pending

/-! ## The Control Port -/

/-- R193, R194: what the Control Port does before an event. A quiet port does nothing. While a reply is being sent the port
goes on sending; when its last byte has gone, a frame held is executed as that request arriving at an idle port would be, and
the port goes on; with none held it is free. The reply of an executed cclr is formed from the table that the events of its
moment have left (R187). A request that arrives is executed at once by a port that is then free; otherwise it joins the
receive buffer as a complete frame, or with two frames there is discarded with CTL_OVERRUN, and nothing else changes. The
numbers of events that come while a reply is sent or before one is formed are free (assumption logs 3 and 31). -/
def Obligations.HeldRequestsWaitAndExecute : Prop :=
  ∀ s0 : State, let s := beforeEvent s0
    (PortQuiet s0 → s = s0) ∧
    (∀ n : Nat, s0.ctl.executing = .sending (n + 1) → s = { s0 with ctl := { s0.ctl with executing := .sending n } }) ∧
    (s0.ctl.executing = .sending 0 → s0.ctl.buffer = [] → s = { s0 with ctl := { s0.ctl with executing := .none } }) ∧
    (∀ (f : Frame) (rest : List Frame) (u : State), s0.ctl.executing = .sending 0 → s0.ctl.buffer = f :: rest →
      exec (commandOf f) { s0 with ctl := { s0.ctl with executing := .none, buffer := [] } } = .next u →
      s = beforeEvent { u with ctl := { u.ctl with buffer := rest } }) ∧
    (∀ (tag : Byte) (n : Nat), s0.ctl.executing = .cclr tag (n + 1) →
      s = { s0 with ctl := { s0.ctl with executing := .cclr tag n } }) ∧
    (∀ tag : Byte, s0.ctl.executing = .cclr tag 0 → ∃ left : BitVec 32,
      s = beforeEvent (answer tag .ok (u32 left.toNat) s0) ∧ left.toNat < 2 ^ 25 ∧
        ∀ i : Fin 25, left.getLsbD i.val = s0.cond.recs[i].latch) ∧
    (s.ctl.executing = .none → s.ctl.buffer = []) ∧
    (∀ f : Frame,
      (s.ctl.executing = .none → exec (commandOf f) s0 = exec (commandOf f) s) ∧
      (s.ctl.executing ≠ .none →
        exec (commandOf f) s0 =
          .next (if s.ctl.buffer.length < 2 then { s with ctl := { s.ctl with buffer := s.ctl.buffer ++ [f] } }
            else occur .ctlOverrun none s)))

/-- R93: in manual trim mode every command of the part but trst, trms, trex, stat, idnt, cond and rset is refused BADSTATE,
whatever its payload. R195: a name that is none of the part's commands is answered UNKNOWN with an empty payload, in manual
trim mode too. Nothing but the reply changes, and the port is sending it from then on (R194; assumption log 3). R183: a reply
carries the class summary as the table holds it when it is formed. R191, R195, R199: the bytes of a reply, its status code among
them; bit k of the class summary is set while a condition of class k is latched. -/
def Obligations.RefusedByName : Prop :=
  (∀ (f : Frame) (s : State), PortIdle s → inManual s = true → isCommandName f.name = true → f.name ∉ manualNames →
     exec (commandOf f) s =
       .next (answer f.tag .badState [] s)) ∧
  (∀ (name : BitVec 32) (r : Request) (s : State), PortIdle s → isCommandName name = false →
     exec (.unknownCommand name r) s =
       .next (answer r.tag .unknown [] s)) ∧
  (∀ (tag : Byte) (st : Status) (p : List Byte) (s : State), ∃ n,
     answer tag st p s = { s with ctl := { s.ctl with
       sent := s.ctl.sent ++ [replyFrame tag st s.cond.summary p], executing := .sending n } }) ∧
  (∀ (tag : Byte) (st : Status) (summary : BitVec 4) (p : List Byte),
     let body := [BitVec.ofNat 8 (3 + p.length), tag,
       (match st with
         | .ok => 0
         | .clamped => 1
         | .unknown => 2
         | .badLen => 3
         | .badArg => 4
         | .badState => 5
         | .busy => 6
         | .full => 7),
       0#4 ++ summary] ++ p
     replyFrame tag st summary p = 0x5D#8 :: (body ++ crcBytes body)) ∧
  (∀ (t : CondTable) (k : Fin 4),
     t.summary.getLsbD k.val = true ↔
       ∃ i : Fin 25, t.recs[i].latch = true ∧ t.recs[i].cls = #v[CondClass.class0, .class1, .class2, .class3][k])

/-- R193, R194, section 11.6: a request frame that arrives whole in HUNT is that request, with its tag, name and payload as
sent: executed at once where the port is free; otherwise it joins the receive buffer, or with two frames there is discarded
with CTL_OVERRUN. R192: a length outside 5..245 and a check that does not match discard the frame with CTL_CRC; bytes may come
in parts; the inter-byte timeout discards the frame being collected, latches CTL_TIMEOUT and returns the receiver to HUNT.
That the execution happens in the event that brings the frame's last byte is the model's reading (assumption log 3). -/
def Obligations.ReceiverTakesFrames : Prop :=
  (∀ (f : Frame) (s0 : State), f.payload.length ≤ 240 → s0.ctl.receiver = none →
     let s := beforeEvent s0
     exec (.requestFrame (requestBytes f)) s0 = exec (commandOf f) s0 ∧
     (s.ctl.executing ≠ .none →
       exec (.requestFrame (requestBytes f)) s0 =
         .next (if s.ctl.buffer.length < 2 then { s with ctl := { s.ctl with buffer := s.ctl.buffer ++ [f] } }
           else occur .ctlOverrun none s))) ∧
  (∀ (b : Byte) (s0 : State), s0.ctl.receiver = none → b.toNat < 5 ∨ 245 < b.toNat →
     exec (.requestFrame [0x5B, b]) s0 = .next (occur .ctlCrc none (beforeEvent s0))) ∧
  (∀ (f : Frame) (h l : Byte) (s0 : State), f.payload.length ≤ 240 → s0.ctl.receiver = none →
     let body := u8 (5 + f.payload.length) ++ [f.tag] ++ u32 f.name.toNat ++ f.payload
     [h, l] ≠ crcBytes body → 0x5B#8 ∉ body ++ [h, l] →
     exec (.requestFrame (0x5B#8 :: (body ++ [h, l]))) s0 = .next (occur .ctlCrc none (beforeEvent s0))) ∧
  (∀ (xs ys : List Byte) (s t : State), exec (.requestFrame xs) s = .next t →
     exec (.requestFrame ys) t = exec (.requestFrame (xs ++ ys)) s) ∧
  (∀ (bs : List Byte) (s0 : State), let s := beforeEvent s0
     s.ctl.receiver = some bs →
     exec .interByteTimeout s0 = .next (occur .ctlTimeout none { s with ctl := { s.ctl with receiver := none } }) ∧
       ∃ t, exec .interByteTimeout s0 = .next t ∧ t.ctl = { s.ctl with receiver := none } ∧
         t.cond.recs[(17 : Fin 25)].latch = true ∧
         t.cond.recs[(17 : Fin 25)].count = bump 65535 s.cond.recs[(17 : Fin 25)].count)

/-! ## Sample arrivals -/

/-- R7 to R10, R82: a written sample arrival fills slot w of every unfrozen channel as the channel's enable and counts say,
moves w, the fill, refill and INJ counts on, and takes one from the TRIMSTEP count of an unfrozen channel, or sets it to 16
where the tracker takes a short trim step; every other slot, every frozen channel's ring, and the blocks named, stay
unchanged. With the aligned flag clear the tracker counts no sample (R29). In STANDBY and DRAINING it writes no slot and the
tracker counts nothing (R7, R78); only the INJ counts run down. -/
def Obligations.SampleArrivalWritesRings : Prop :=
  (∀ (x : Samples) (s0 : State), let s := beforeEvent s0
     RingsCanonical s → s.clk.state = .locked → s.trim.engine = .idle →
     (s.acq.state = .priming ∨ s.acq.state = .running ∨ s.acq.state = .suspended) →
     ∃ t, exec (.sampleArrival x) s0 = .next t ∧ t.pipe.w = s.pipe.w + 1 ∧ t.pipe.fill = bump 512 s.pipe.fill ∧
       (∀ c : Chan, s.pipe.chans[c].frozen = false →
         ringRead t.pipe.chans[c].ring s.pipe.w.val =
             (if s.front.recs[c].enable then
               { hg := x[c].hg, lg := x[c].lg, clipH := decide (x[c].hg = 4095), clipL := decide (x[c].lg = 4095),
                 inj := decide (0 < s.pipe.chans[c].injCount), trimStep := decide (0 < s.pipe.chans[c].trimStepCount),
                 disabled := false }
             else
               { hg := 0, lg := 0, clipH := false, clipL := false, inj := false, trimStep := false, disabled := true }) ∧
           (∀ p : Nat, p ≠ s.pipe.w.val →
             ringRead t.pipe.chans[c].ring p = ringRead s.pipe.chans[c].ring p) ∧
           t.pipe.chans[c].newest = s.pipe.w ∧ t.pipe.chans[c].refill = bump 512 s.pipe.chans[c].refill ∧
           t.pipe.chans[c].trimStepCount =
             (if (trackAt s x c).stepped then 16 else s.pipe.chans[c].trimStepCount - 1)) ∧
       (∀ c : Chan, s.pipe.chans[c].frozen = true →
         t.pipe.chans[c].ring = s.pipe.chans[c].ring ∧ t.pipe.chans[c].newest = s.pipe.chans[c].newest ∧
           t.pipe.chans[c].refill = s.pipe.chans[c].refill ∧
           t.pipe.chans[c].trimStepCount = s.pipe.chans[c].trimStepCount) ∧
       (∀ c : Chan, t.pipe.chans[c].injCount = s.pipe.chans[c].injCount - 1 ∧
         t.pipe.chans[c].frozen = s.pipe.chans[c].frozen) ∧
       (s.timing.aligned = false → t.ped = s.ped ∧ t.front = s.front ∧ t.cond = s.cond) ∧
       t.pipe.latency = s.pipe.latency ∧ t.pipe.window = s.pipe.window ∧ t.front.recs = s.front.recs ∧
       t.timing = s.timing ∧ t.clk = s.clk ∧ t.aq.records = s.aq.records ∧ t.aq.snaps = s.aq.snaps ∧ t.filt = s.filt ∧
       t.list = s.list ∧ t.builder = s.builder ∧ t.tx.buffer = s.tx.buffer ∧ t.inj = s.inj ∧ t.integ = s.integ ∧
       t.ctl = s.ctl) ∧
  (∀ (x : Samples) (s0 : State), let s := beforeEvent s0
     s.clk.state = .locked → s.trim.engine = .idle →
     (s.acq.state = .standby ∨ s.acq.state = .draining) →
     exec (.sampleArrival x) s0 =
       .next { s with pipe := { s.pipe with
         chans := Vector.ofFn fun c => { s.pipe.chans[c] with injCount := s.pipe.chans[c].injCount - 1 } } })

/-- R44: the written sample arrival that brings the fill count to L moves PRIMING to RUNNING, unless that same arrival raises
class 3, which suspends (R46). -/
def Obligations.PrimingCompletes : Prop :=
  ∀ (x : Samples) (s0 : State), let s := beforeEvent s0
    SuspendRule s → TrimInStandby s → s.acq.state = .priming →
    s.clk.state = .locked → s.pipe.fill < 512 → s.pipe.fill + 1 = s.acq.startL →
    ∃ t, exec (.primingComplete x) s0 = .next t ∧ t.pipe.fill = s.acq.startL ∧
      t.acq = { s.acq with state := if class3 t then .suspended else .running }

/-- R79, R80: at the sample that completes a block of a channel without auto-trim, each gain whose blank flag is clear moves
its P by the difference of the block mean and P rounded by k, clamped; a blanked block is discarded and the flag cleared. Both
are emptied and the DACs stay. R81, R82: with auto-trim on, an unblanked block whose updated P stands above 16·(T + h) lowers
a DAC above 0 by one and P by σ, clamped, and below 16·(T − h) raises a DAC below 255 by one and P by σ, clamped; either step
sets the blank flag and the channel's TRIMSTEP count to 16. At a DAC limit TRIM_LIMIT latches, and DAC and P stay; inside the
band they stay too. A clamp that changes P, at the update or at the step, latches PED_RANGE. The same of one channel-gain alone,
with k = 0, where P is the block mean; and there PED_RANGE and TRIM_LIMIT occur in no other case. -/
def Obligations.BlocksMovePedestals : Prop :=
  (∀ (x : Samples) (s0 : State) (c : Chan) (g : Gain), let s := beforeEvent s0
     SampleCounts x s c → s.trim.engine = .idle →
     s.ped.chans[c].autoTrim = false → 2 ^ s.ped.chans[c].blockExp = (s.ped.chans[c].gains.get g).count + 1 →
     ∃ t, exec (.blockComplete x) s0 = .next t ∧
       t.ped.chans[c].gains.get g =
         { s.ped.chans[c].gains.get g with
           count := 0, sum := 0, blank := false,
           p := if (s.ped.chans[c].gains.get g).blank then (s.ped.chans[c].gains.get g).p
             else (clampTo 0 65520 (((s.ped.chans[c].gains.get g).p : Int) + roundBy s.ped.chans[c].updateExp
               (((roundBy s.ped.chans[c].blockExp
                   (16 * (((s.ped.chans[c].gains.get g).sum + (x[c].get g).toNat : Nat) : Int))).toNat : Int)
                 - ((s.ped.chans[c].gains.get g).p : Int)))).toNat } ∧
       t.front.dacs[c].get g = s.front.dacs[c].get g ∧ t.ped.chans[c].settings = s.ped.chans[c].settings ∧
       (let p : Int := ((s.ped.chans[c].gains.get g).p : Int) + roundBy s.ped.chans[c].updateExp
           (((roundBy s.ped.chans[c].blockExp
               (16 * (((s.ped.chans[c].gains.get g).sum + (x[c].get g).toNat : Nat) : Int))).toNat : Int)
             - ((s.ped.chans[c].gains.get g).p : Int))
        (s.ped.chans[c].gains.get g).blank = false → p < 0 ∨ 65520 < p →
          t.cond.recs[(11 : Fin 25)].latch = true)) ∧
  (∀ (x : Samples) (s0 : State) (c : Chan) (g : Gain), let s := beforeEvent s0
     let old := s.ped.chans[c].gains.get g
     let dac := s.front.dacs[c].get g
     let target := s.ped.chans[c].target.get g
     let h := s.ped.chans[c].hysteresis
     SampleCounts x s c → s.trim.engine = .idle → s.ped.chans[c].autoTrim = true →
     2 ^ s.ped.chans[c].blockExp = old.count + 1 →
     let m := (roundBy s.ped.chans[c].blockExp (16 * ((old.sum + (x[c].get g).toNat : Nat) : Int))).toNat
     let moved : Int := (old.p : Int) + roundBy s.ped.chans[c].updateExp ((m : Int) - (old.p : Int))
     let p := (clampTo 0 65520 moved).toNat
     ∃ t, exec (.blockComplete x) s0 = .next t ∧ t.ped.chans[c].settings = s.ped.chans[c].settings ∧
       (let now := t.ped.chans[c].gains.get g
        let dac' := t.front.dacs[c].get g
        (old.blank = true → now = { old with count := 0, sum := 0, blank := false } ∧ dac' = dac) ∧
        (old.blank = false → 16 * (target + h) < p → 0 < dac →
          now = { old with count := 0, sum := 0, blank := true, p := p - old.sigma } ∧ dac' = dac - 1 ∧
            t.pipe.chans[c].trimStepCount = 16) ∧
        (old.blank = false → p + 16 * h < 16 * target → dac < 255 →
          now = { old with count := 0, sum := 0, blank := true, p := min 65520 (p + old.sigma) } ∧ dac' = dac + 1 ∧
            t.pipe.chans[c].trimStepCount = 16) ∧
        (old.blank = false → (16 * (target + h) < p ∧ dac = 0) ∨ (p + 16 * h < 16 * target ∧ dac = 255) →
          now = { old with count := 0, sum := 0, p := p } ∧ dac' = dac ∧ t.cond.recs[(8 : Fin 25)].latch = true) ∧
        (old.blank = false → p ≤ 16 * (target + h) → 16 * target ≤ p + 16 * h →
          now = { old with count := 0, sum := 0, p := p } ∧ dac' = dac) ∧
        (old.blank = false →
          moved < 0 ∨ 65520 < moved ∨ (16 * (target + h) < p ∧ 0 < dac ∧ p < old.sigma) ∨
            (p + 16 * h < 16 * target ∧ dac < 255 ∧ 65520 < p + old.sigma) →
          t.cond.recs[(11 : Fin 25)].latch = true))) ∧
  (∀ (c : ChanTrack) (target sum dac : Nat) (g : GainTrack), c.autoTrim = true → c.updateExp = 0 → g.blank = false →
     sum * 16 + 2 ^ c.blockExp ≤ 65520 * 2 ^ c.blockExp →
     let m := (roundBy c.blockExp (16 * (sum : Int))).toNat
     let r := blockComplete c target sum g dac
     (16 * (target + c.hysteresis) < m → 0 < dac →
       r.dac = dac - 1 ∧ r.track.p = m - g.sigma ∧ r.track.blank = true ∧ r.stepped = true) ∧
     (16 * (target + c.hysteresis) < m → dac = 0 →
       r.dac = 0 ∧ r.track.p = m ∧ r.track.blank = false ∧ r.stepped = false ∧ Cond.trimLimit ∈ r.conds) ∧
     (m + 16 * c.hysteresis < 16 * target → dac < 255 →
       r.dac = dac + 1 ∧ r.track.p = min 65520 (m + g.sigma) ∧ r.track.blank = true ∧ r.stepped = true) ∧
     (m + 16 * c.hysteresis < 16 * target → dac = 255 →
       r.dac = 255 ∧ r.track.p = m ∧ r.track.blank = false ∧ r.stepped = false ∧ Cond.trimLimit ∈ r.conds) ∧
     (m ≤ 16 * (target + c.hysteresis) → 16 * target ≤ m + 16 * c.hysteresis →
       r.dac = dac ∧ r.track.p = m ∧ r.track.blank = false ∧ r.stepped = false) ∧
     r.track.count = 0 ∧ r.track.sum = 0 ∧ r.track.sigma = g.sigma) ∧
  (∀ (c : ChanTrack) (target sum dac : Nat) (g : GainTrack),
     let moved : Int := (g.p : Int) +
       roundBy c.updateExp (((roundBy c.blockExp (16 * (sum : Int))).toNat : Int) - (g.p : Int))
     let p := (clampTo 0 65520 moved).toNat
     let above := c.autoTrim = true ∧ 16 * (target + c.hysteresis) < p
     let below := c.autoTrim = true ∧ p + 16 * c.hysteresis < 16 * target
     let r := blockComplete c target sum g dac
     (Cond.pedRange ∈ r.conds ↔ g.blank = false ∧
       (moved < 0 ∨ 65520 < moved ∨ (above ∧ 0 < dac ∧ p < g.sigma) ∨ (below ∧ dac < 255 ∧ 65520 < p + g.sigma))) ∧
     (Cond.trimLimit ∈ r.conds ↔ g.blank = false ∧ ((above ∧ dac = 0) ∨ (below ∧ 255 ≤ dac))))

/-! ## Timing-link frames, link and clock -/

/-- R22, R25, R27 to R30, R32: every frame advances the serial; the counter advances and wraps at the turn length, and an acting
TURNMARK sets it to 0 with the aligned flag, latching TURN_SLIP where an aligned counter stood at other than 0; an acting
EVCLEAR and an acting ACCEPT move the event number; flags act only in a frame that passes its check with the link LOCKED. The
quiet indication follows the counter and the aligned flag. -/
def Obligations.TimingFrameCounts : Prop :=
  (∀ (f : Byte) (s0 : State), let s := beforeEvent s0
     ∃ t, exec (.timingFrame f) s0 = .next t ∧ t.timing.serial = s.timing.serial + 1 ∧
     (s.timing.link = .locked → frameGood f = true →
       t.timing.link = .locked ∧ t.timing.failCount = 0 ∧
       t.timing.event =
         (if frameEvclear f then 0 else s.timing.event) + (if frameAccept f then 1 else 0) ∧
       (frameTurnmark f = true → t.timing.counter = 0 ∧ t.timing.aligned = true) ∧
       (frameTurnmark f = false → t.timing.aligned = s.timing.aligned)) ∧
     (¬ (s.timing.link = .locked ∧ frameGood f = true) → t.timing.event = s.timing.event) ∧
     (¬ (s.timing.link = .locked ∧ frameGood f = true ∧ frameTurnmark f = true) →
       t.timing.counter = if s.timing.counter + 1 < s.timing.turnLength then s.timing.counter + 1 else 0) ∧
     t.timing.quiet =
       (t.timing.aligned &&
         if t.timing.quietFrom ≤ t.timing.quietTo then
           decide (t.timing.quietFrom ≤ t.timing.counter ∧ t.timing.counter ≤ t.timing.quietTo)
         else decide (t.timing.quietFrom ≤ t.timing.counter ∨ t.timing.counter ≤ t.timing.quietTo)) ∧
     t.timing.turnLength = s.timing.turnLength ∧ t.timing.quietFrom = s.timing.quietFrom ∧
     t.timing.quietTo = s.timing.quietTo ∧ t.front.recs = s.front.recs ∧ t.filt = s.filt ∧ t.ped = s.ped ∧
     t.trim = s.trim ∧ t.pipe.w = s.pipe.w ∧ t.pipe.fill = s.pipe.fill ∧ t.ctl = s.ctl) ∧
  (∀ (f : Byte) (s0 : State), let s := beforeEvent s0
     s.timing.link = .locked → frameGood f = true → frameTurnmark f = true →
     s.timing.aligned = true → s.timing.counter + 1 < s.timing.turnLength →
     ∃ t, exec (.timingFrame f) s0 = .next t ∧ t.timing.counter = 0 ∧ t.timing.aligned = true ∧
       t.cond.recs[(2 : Fin 25)].latch = true ∧
       t.cond.recs[(2 : Fin 25)].count = bump 65535 s.cond.recs[(2 : Fin 25)].count)

/-- R24, R25: the 64th good frame of a row in SEEKING locks the link at the candidate alignment, and no flag of it acts; the
eighth bad frame of a row in LOCKED sends the link to SEEKING, clears the aligned flag, and latches TL_CHECK and TL_LOSS once
each. In SEEKING every other good frame adds one to the run count, and a bad one sets it to 0 and moves the candidate on. The
candidate on entry into SEEKING is the position at which the last frame was taken (R23, R24, R35); that a failing frame of
SEEKING counts as taken at the candidate it was tried at, and so where a later search begins, is the model's reading (DEDUCED,
assumption log 24). -/
def Obligations.LinkLocksAndLoses : Prop :=
  (∀ (f : Byte) (s0 : State), let s := beforeEvent s0
    s.timing.link = .seeking → s.timing.runCount = 63 → frameGood f = true →
    ∃ t, exec (.linkLock f) s0 = .next t ∧ t.timing.link = .locked ∧ t.timing.failCount = 0 ∧
      t.timing.candidate = s.timing.candidate ∧ t.timing.event = s.timing.event ∧ t.timing.aligned = s.timing.aligned ∧
      t.timing.serial = s.timing.serial + 1 ∧ t.aq.records = s.aq.records ∧ t.clk.s = s.clk.s) ∧
  (∀ (f : Byte) (s0 : State), let s := beforeEvent s0
    s.timing.link = .locked → s.timing.failCount = 7 → frameGood f = false →
    ∃ t, exec (.linkLoss f) s0 = .next t ∧ t.timing.link = .seeking ∧ t.timing.runCount = 0 ∧ t.timing.aligned = false ∧
      t.timing.candidate = s.timing.candidate ∧ t.timing.event = s.timing.event ∧
      t.timing.serial = s.timing.serial + 1 ∧ t.aq.records = s.aq.records ∧
      t.cond.recs[(0 : Fin 25)].latch = true ∧
      t.cond.recs[(0 : Fin 25)].count = bump 65535 s.cond.recs[(0 : Fin 25)].count ∧
      t.cond.recs[(1 : Fin 25)].latch = true ∧
      t.cond.recs[(1 : Fin 25)].count = bump 65535 s.cond.recs[(1 : Fin 25)].count) ∧
  (∀ (f : Byte) (s0 : State), let s := beforeEvent s0
    s.timing.link = .seeking → s.timing.runCount < 63 ∨ frameGood f = false →
    ∃ t, exec (.timingFrame f) s0 = .next t ∧ t.timing.link = .seeking ∧
      t.timing.runCount = (if frameGood f then s.timing.runCount + 1 else 0) ∧
      t.timing.candidate = (if frameGood f then s.timing.candidate else s.timing.candidate + 1) ∧
      t.timing.lastTaken = s.timing.candidate ∧ t.timing.aligned = s.timing.aligned) ∧
  (∀ (f : Byte) (s0 : State), let s := beforeEvent s0
    s.timing.link = .locked → ∃ t, exec (.timingFrame f) s0 = .next t ∧
    t.timing.lastTaken = s.timing.candidate ∧ t.timing.candidate = s.timing.candidate) ∧
  (∀ (f : Byte) (s0 : State), let s := beforeEvent s0
    s.timing.link = .noSignal →
    ∃ t, exec (.timingFrame f) s0 = .next t ∧ t.timing.link = .seeking ∧
      t.timing.runCount = (if frameGood f then 1 else 0) ∧
      t.timing.candidate = (if frameGood f then s.timing.lastTaken else s.timing.lastTaken + 1) ∧
      t.timing.lastTaken = s.timing.lastTaken ∧ t.timing.aligned = false ∧
      t.clk = { s.clk with state := .acquiring, lockCount := 0 })

/-- R167, R168, R9: the crossing arrival that brings the serial of the next firing fires a pulse: the INJ count of every masked
channel becomes 4·S, a pulse record joins the pending list behind those that this arrival does not expire, the network is
driven, and the train goes on or ends. DELAY_EXPIRY fires the first pulse of a train and PULSE_FIRING a later one. A record that
finds 8 in the list does not join it, and CAL_LIST_FULL latches; with 8 records of which this arrival expires some, either may
be (R170, assumption log 4). That the S of the INJ count is the present one of the Clock Synthesiser, in STANDBY too, is the
model's reading (assumption log 18). -/
def Obligations.PulseFires : Prop :=
  ∀ (f : Byte) (s0 : State) (k : Nat) (c : Instr), let s := beforeEvent s0
    NoCommands f s →
    ((s.inj.state = .delaying (s.timing.serial + 1) ∧ k = 0 ∧ c = .delayExpiry f) ∨
      (s.inj.state = .firing (s.timing.serial + 1) k ∧ c = .pulseFiring f)) →
    ∃ (t : State) (joins : Bool), exec c s0 = .next t ∧
      t.inj = { s.inj with
        pending := s.inj.pending.filter (fun p => !expired (lookBack s.acq) (s.timing.serial + 1) p) ++
          (if joins then [{ serial := s.timing.serial + 1, train := s.inj.train, index := k }] else []),
        driven := s.inj.driven ++
          [{ serial := s.timing.serial + 1, mask := s.inj.mask, amplitude := s.inj.amplitude }],
        state :=
          if k + 1 < s.inj.count then .firing (s.timing.serial + 1 + BitVec.ofNat 32 s.inj.spacing) (k + 1)
          else if s.inj.mode = .repeating then .armed else .disarmed } ∧
      (s.inj.pending.length < 8 → joins = true) ∧
      (8 ≤ s.inj.pending.length →
        (∀ p ∈ s.inj.pending, expired (lookBack s.acq) (s.timing.serial + 1) p = false) → joins = false) ∧
      (joins = true → t.cond.recs[(20 : Fin 25)] = s.cond.recs[(20 : Fin 25)]) ∧
      (joins = false → t.cond.recs[(20 : Fin 25)].latch = true ∧
        t.cond.recs[(20 : Fin 25)].count = bump 65535 s.cond.recs[(20 : Fin 25)].count) ∧
      (∀ ch : Chan, t.pipe.chans[ch] =
        if s.inj.mask.getLsbD ch.val then { s.pipe.chans[ch] with injCount := 4 * s.clk.s } else s.pipe.chans[ch]) ∧
      t.pipe.w = s.pipe.w ∧ t.aq.records = s.aq.records ∧ t.builder = s.builder ∧ t.tx.buffer = s.tx.buffer

/-- R171: a crossing arrival takes every pulse record whose serial lies before s − L/S (by 1 to 2^31 crossings) out of the
list, counts each in MISSED and latches CAL_MISSED. R166, R167: a PULSEREQ that acts starts a train in ARMED, whose first
pulse is due D crossings on with D above 0, and fires in the same event with D equal to 0; in DISARMED it is ignored; with a
train in progress it is ignored and CAL_OVERLAP latches. That the S of the INJ count 4·S is the present one of the Clock
Synthesiser, in STANDBY too, is the model's reading (DEDUCED, assumption log 18). -/
def Obligations.PendingPulsesAndRequests : Prop :=
  (∀ (f : Byte) (s0 : State), let s := beforeEvent s0
     NoCommands f s → (s.inj.state = .disarmed ∨ s.inj.state = .armed) →
     (∃ p ∈ s.inj.pending, expired (lookBack s.acq) (s.timing.serial + 1) p = true) →
     ∃ t, exec (.pendingPulseExpiry f) s0 = .next t ∧
       t.inj = { s.inj with
         pending := s.inj.pending.filter fun p =>
           !decide (1 ≤ (s.timing.serial + 1 - BitVec.ofNat 32 (s.acq.startL / s.acq.startS) - p.serial).toNat ∧
             (s.timing.serial + 1 - BitVec.ofNat 32 (s.acq.startL / s.acq.startS) - p.serial).toNat ≤ 2 ^ 31) } ∧
       t.cond.counters = { s.cond.counters with
         missed := s.cond.counters.missed + BitVec.ofNat 32 (s.inj.pending.length - t.inj.pending.length) } ∧
       t.cond.recs[(18 : Fin 25)].latch = true ∧ t.pipe = s.pipe ∧ t.aq.records = s.aq.records) ∧
  (∀ (s0 : State), let s := beforeEvent s0
     s.timing.link = .locked → s.inj.pending.length < 8 →
     (s.inj.state = .armed → 1 ≤ s.inj.delay → s.inj.delay ≤ 255 →
       ∃ t, exec (.timingFrame 0x1E) s0 = .next t ∧
         t.inj.state = .delaying (s.timing.serial + 1 + BitVec.ofNat 32 s.inj.delay) ∧ t.inj.train = s.inj.train + 1 ∧
         t.pipe = s.pipe) ∧
     (s.inj.state = .armed → s.inj.delay = 0 →
       ∃ t, exec (.timingFrame 0x1E) s0 = .next t ∧
         t.inj = { s.inj with
           train := s.inj.train + 1,
           pending := s.inj.pending.filter (fun p => !expired (lookBack s.acq) (s.timing.serial + 1) p) ++
             [{ serial := s.timing.serial + 1, train := s.inj.train + 1, index := 0 }],
           driven := s.inj.driven ++
             [{ serial := s.timing.serial + 1, mask := s.inj.mask, amplitude := s.inj.amplitude }],
           state :=
             if 1 < s.inj.count then .firing (s.timing.serial + 1 + BitVec.ofNat 32 s.inj.spacing) 1
             else if s.inj.mode = .repeating then .armed else .disarmed } ∧
         (∀ ch : Chan, t.pipe.chans[ch] =
           if s.inj.mask.getLsbD ch.val then { s.pipe.chans[ch] with injCount := 4 * s.clk.s }
           else s.pipe.chans[ch]) ∧
         t.cond.recs[(20 : Fin 25)] = s.cond.recs[(20 : Fin 25)]) ∧
     (s.inj.state = .disarmed → ∃ t, exec (.timingFrame 0x1E) s0 = .next t ∧ t.inj.state = .disarmed ∧
       t.inj.train = s.inj.train ∧ t.pipe = s.pipe ∧
       t.cond.recs[(19 : Fin 25)] = s.cond.recs[(19 : Fin 25)]) ∧
     (∀ next k, s.inj.state = .delaying next ∨ s.inj.state = .firing next k →
       ∃ t, exec (.timingFrame 0x1E) s0 = .next t ∧ t.inj.train = s.inj.train ∧
       t.cond.recs[(19 : Fin 25)].latch = true ∧
       t.cond.recs[(19 : Fin 25)].count = bump 65535 s.cond.recs[(19 : Fin 25)].count))

/-- R35, R37: the crossing arrival that brings the lock counter to 2048 in ACQUIRING makes the synthesiser LOCKED, and moves
neither fill count nor write index. R36, R37: a phase slip in LOCKED sends it to ACQUIRING, latches CLK_UNLOCK and has the
effects of the departure; in ACQUIRING it sets the lock counter back to 0. R23, R36: the loss of the crossing clock puts link
and synthesiser in NO_SIGNAL and UNLOCKED, clears the aligned flag, latches TL_LOSS from a LOCKED link and CLK_UNLOCK from a
LOCKED synthesiser, each without the other where only one was LOCKED, and keeps serial, counter and event number. R96: at
either departure in manual trim mode the settle count becomes 64, and a trms in progress is answered BADSTATE; that the
reply's class summary shows the conditions of the departure is the model's choice (assumption log 33), and so is that the
measurement counter of a scan that is stopped keeps its value (assumption log 36). -/
def Obligations.ClockLockComesAndGoes : Prop :=
  (∀ (f : Byte) (s0 : State), let s := beforeEvent s0
     s.timing.link ≠ .noSignal → s.clk.state = .acquiring → s.clk.lockCount = 2047 →
     ∃ t, exec (.lockAcquired f) s0 = .next t ∧ t.clk = { s.clk with state := .locked, lockCount := 2048 } ∧
       t.pipe.fill = s.pipe.fill ∧ t.pipe.w = s.pipe.w ∧ t.timing.serial = s.timing.serial + 1) ∧
  (∀ s0 : State, let s := beforeEvent s0
     (s.clk.state = .locked → s.trim.engine = .idle →
       ∃ t, exec .phaseSlip s0 = .next t ∧ t.clk = { s.clk with state := .acquiring, lockCount := 0 } ∧
         t.timing = s.timing ∧ t.cond.recs[(3 : Fin 25)].latch = true ∧
         t.cond.recs[(3 : Fin 25)].count = bump 65535 s.cond.recs[(3 : Fin 25)].count ∧ Departed s t) ∧
     (s.clk.state = .acquiring → exec .phaseSlip s0 = .next { s with clk := { s.clk with lockCount := 0 } })) ∧
  (∀ s0 : State, let s := beforeEvent s0
     s.timing.link ≠ .noSignal →
     (s.clk.state = .locked → s.trim.engine = .idle →
       ∃ t, exec .crossingClockLoss s0 = .next t ∧ t.timing = { s.timing with link := .noSignal, aligned := false } ∧
         t.clk = { s.clk with state := .unlocked, lockCount := 0 } ∧
         (s.timing.link = .locked → t.cond.recs[(0 : Fin 25)].latch = true) ∧
         (s.timing.link = .seeking → t.cond.recs[(0 : Fin 25)] = s.cond.recs[(0 : Fin 25)]) ∧
         t.cond.recs[(3 : Fin 25)].latch = true ∧ Departed s t) ∧
     (s.clk.state = .acquiring → s.timing.link = .locked →
       ∃ t, exec .crossingClockLoss s0 = .next t ∧
         t = occur .tlLoss none { s with
           timing := { s.timing with link := .noSignal, aligned := false },
           clk := { s.clk with state := .unlocked, lockCount := 0 } } ∧
         t.cond.recs[(0 : Fin 25)].latch = true ∧
         t.cond.recs[(0 : Fin 25)].count = bump 65535 s.cond.recs[(0 : Fin 25)].count ∧
         t.cond.recs[(3 : Fin 25)] = s.cond.recs[(3 : Fin 25)] ∧ t.pipe = s.pipe ∧ t.inj = s.inj ∧ t.integ = s.integ ∧
         t.trim = s.trim ∧ t.ctl = s.ctl) ∧
     (s.clk.state = .acquiring → s.timing.link = .seeking →
       exec .crossingClockLoss s0 =
         .next { s with
           timing := { s.timing with link := .noSignal, aligned := false },
           clk := { s.clk with state := .unlocked, lockCount := 0 } })) ∧
  (∀ (s0 : State) (m : ManualTrim), let s := beforeEvent s0
     s.clk.state = .locked → s.trim.engine = .manual m →
     ∀ c : Instr, c = .phaseSlip ∨ (c = .crossingClockLoss ∧ s.timing.link ≠ .noSignal) →
     ∃ t, exec c s0 = .next t ∧ t.trim = { s.trim with engine := .manual { m with settle := 64, measuring := none } } ∧
       (∀ tag : Byte, s.ctl.executing = .trms tag → m.measuring ≠ none → Replies tag .badState [] s t) ∧
       (m.measuring = none → t.ctl = s.ctl) ∧ t.front = s.front ∧ t.ped = s.ped)

/-! ## The Slow Integrator Monitor -/

/-- R176: the crossing arrival that brings the settle count to 0 sets the measurement counter to 0 and opens a gate of the set
length; in GATE a converter pulse of the selected channel adds one to the counter, up to its top, and any other pulse nothing.
R177: the crossing arrival that brings the gate count to 0 writes the channel's reading, latches INT_OVERWRITE over a NEW
reading, INT_OVF on a saturated counter and INT_HIGH on a count above the limit, and moves the scan on. -/
def Obligations.ScanSettlesGatesAndReads : Prop :=
  ((∀ (f : Byte) (s0 : State) (c : Chan), let s := beforeEvent s0
     s.integ.scan = .settle c 1 →
     ∃ t, exec (.settleExpiry f) s0 = .next t ∧
       t.integ = { s.integ with counter := 0, scan := .gate c s.integ.gateLength } ∧
       t.timing.serial = s.timing.serial + 1) ∧
   (∀ (s0 : State) (c d : Chan) (n : Nat), let s := beforeEvent s0
     s.integ.scan = .gate d n →
     exec (.converterPulse c) s0 =
       .next (if c = d then
         { s with integ := { s.integ with counter := if s.integ.counter < 16777215 then s.integ.counter + 1
                                                       else s.integ.counter } }
         else s)) ∧
   (∀ (s0 : State) (c d : Chan) (n : Nat), let s := beforeEvent s0
     s.integ.scan = .idle ∨ s.integ.scan = .settle d n →
     exec (.converterPulse c) s0 = .next s)) ∧
  (∀ (f : Byte) (s0 : State) (c : Chan), let s := beforeEvent s0
     s.integ.scan = .gate c 1 → c ≤ s.integ.endChan →
     ∃ t, exec (.gateExpiry f) s0 = .next t ∧
       (∀ d : Chan, t.integ.readings[d] =
         if d = c then
           { status := .new, count := s.integ.counter, gate := s.integ.gateLength, pass := s.integ.pass,
             ovf := decide (s.integ.counter = 16777215),
             overwritten := decide (s.integ.readings[c].status = .new) }
         else s.integ.readings[d]) ∧
       (c < s.integ.endChan → t.integ.scan = .settle (c + 1) 64 ∧ t.integ.pass = s.integ.pass) ∧
       (c = s.integ.endChan → s.integ.mode = .single → t.integ.scan = .idle ∧ t.integ.pass = s.integ.pass) ∧
       (c = s.integ.endChan → s.integ.mode = .continuous →
         t.integ.scan = .settle s.integ.startChan 64 ∧ t.integ.pass = s.integ.pass + 1) ∧
       t.integ.limit = s.integ.limit ∧ t.integ.settings = s.integ.settings ∧
       t.cond.recs[(23 : Fin 25)].latch =
         (s.cond.recs[(23 : Fin 25)].latch || decide (s.integ.readings[c].status = .new)) ∧
       t.cond.recs[(21 : Fin 25)].latch =
         (s.cond.recs[(21 : Fin 25)].latch || decide (s.integ.counter = 16777215)) ∧
       t.cond.recs[(22 : Fin 25)].latch =
         (s.cond.recs[(22 : Fin 25)].latch || decide (s.integ.limit < s.integ.counter)))

/-! ## Accepts -/

/-- R55, R60 to R64, R66: an accept in RUNNING with room in the list, a free snapshot slot and no rule violation becomes a
full record behind the others: its numbers, the gap count taken over, the lowest-numbered free slot with every channel's
window and pedestals captured, the pulses of its span retired. With a build under way the builder goes on with it. R60: where
one of the four reasons holds, tried in their order (UNPRIMED, SUSPENDED, RULE, NOSLOT), the accept becomes a NOSNAP record
with that reason: it is counted in NOSNAPS, no slot changes, and NOSLOT alone latches a condition. R136, R141: at an IDLE
builder the record made starts in the same event; R143, R145: a NOSNAP record, or a full one with an empty active list, that
an IDLE builder takes is built at once, and where its fragment fits it is appended in the same event. R26, R32, R33: a
timing-link frame that passes in LOCKED and brings nothing but an accept about makes such an accept of it, with the crossing
serial and counter after the frame's advance and the event number counter's value, 0 with EVCLEAR. -/
def Obligations.AcceptMakesFullRecord : Prop :=
  (∀ (e : EventNum) (s : State) (k : Fin 16) (b : Build), s.acq.state = .running → s.aq.records.length < 32 →
    s.aq.snaps[k] = none → (∀ j : Fin 16, j < k → s.aq.snaps[j] ≠ none) →
    ruleViolated s.aq s.timing.serial = false → s.builder.state = .building b → s.builder.inFlight.isSome = true →
    let r : Serial := s.timing.serial - BitVec.ofNat 32 (s.acq.startL / s.acq.startS)
    let span := (s.acq.startN + s.acq.startS - 1) / s.acq.startS
    let t := acceptArrival e s
    t.aq.records = s.aq.records ++
      [{ event := e,
         crossing := (((s.timing.counter : Int) - (s.acq.startL / s.acq.startS : Nat)) %
           (s.timing.turnLength : Int)).toNat,
         refSerial := r, unaligned := !s.timing.aligned, rule := false, gap := s.aq.gap, kind := .full k,
         pulse := (s.inj.pending.find? fun p => decide ((p.serial - r).toNat < span)).map Pulse.index }] ∧
    t.aq.gap = 0 ∧
    t.inj = { s.inj with pending := s.inj.pending.filter fun p => !decide ((p.serial - r).toNat < span) } ∧
    (∀ j : Fin 16, j ≠ k → t.aq.snaps[j] = s.aq.snaps[j]) ∧
    (∃ snap, t.aq.snaps[k] = some snap ∧ ∀ c : Chan,
      snap[c].window = (List.range s.acq.startN).map (fun i =>
        ringRead s.pipe.chans[c].ring ((s.pipe.w.val + 512 - s.acq.startL % 512 + i) % 512)) ∧
      snap[c].held = s.pipe.chans[c].frozen ∧ snap[c].stale = decide (s.pipe.chans[c].refill < s.acq.startL) ∧
      snap[c].disabled = !s.front.recs[c].enable ∧
      snap[c].pedestal = ⟨s.ped.chans[c].gains.hg.p, s.ped.chans[c].gains.lg.p⟩) ∧
    t.cond.counters = { s.cond.counters with
      accSeen := s.cond.counters.accSeen + 1, recMade := s.cond.counters.recMade + 1 } ∧
    (s.aq.hi ≤ slotsInUse s + 1 → t.aq.throttle = true) ∧ (slotsInUse s + 1 < s.aq.hi → t.aq.throttle = s.aq.throttle) ∧
    t.pipe = s.pipe ∧ t.builder = s.builder ∧ t.acq = s.acq ∧ t.cond.recs = s.cond.recs) ∧
  (∀ (e : EventNum) (s : State) (b : Build) (reason : NosnapReason), s.aq.records.length < 32 →
    s.builder.state = .building b → s.builder.inFlight.isSome = true →
    let v := ruleViolated s.aq s.timing.serial
    (v = true → s.cond.recs[(6 : Fin 25)].cls ≠ .class3) →
    (s.acq.state = .priming ∧ reason = .unprimed ∨ s.acq.state = .suspended ∧ reason = .suspended ∨
      s.acq.state = .running ∧ (v = true ∧ s.aq.degrade = true) ∧ reason = .rule ∨
      s.acq.state = .running ∧ ¬ (v = true ∧ s.aq.degrade = true) ∧ (∀ k : Fin 16, s.aq.snaps[k] ≠ none) ∧
        reason = .noslot) →
    let r : Serial := s.timing.serial - BitVec.ofNat 32 (s.acq.startL / s.acq.startS)
    let span := (s.acq.startN + s.acq.startS - 1) / s.acq.startS
    let t := acceptArrival e s
    t.aq.records = s.aq.records ++
      [{ event := e,
         crossing := (((s.timing.counter : Int) - (s.acq.startL / s.acq.startS : Nat)) %
           (s.timing.turnLength : Int)).toNat,
         refSerial := r, unaligned := !s.timing.aligned, rule := v, gap := s.aq.gap, kind := .nosnap reason,
         pulse := (s.inj.pending.find? fun p => decide ((p.serial - r).toNat < span)).map Pulse.index }] ∧
    t.aq.gap = 0 ∧ t.aq.snaps = s.aq.snaps ∧
    t.inj = { s.inj with pending := s.inj.pending.filter fun p => !decide ((p.serial - r).toNat < span) } ∧
    t.cond.counters = { s.cond.counters with
      accSeen := s.cond.counters.accSeen + 1, recMade := s.cond.counters.recMade + 1,
      noSnaps := s.cond.counters.noSnaps + 1, ruleV := s.cond.counters.ruleV + if v then 1 else 0 } ∧
    (reason = .noslot →
      t.cond.recs[(5 : Fin 25)].latch = true ∧
        t.cond.recs[(5 : Fin 25)].count = bump 65535 s.cond.recs[(5 : Fin 25)].count ∧
        (s.cond.recs[(5 : Fin 25)].latch = false → t.cond.recs[(5 : Fin 25)].first = some e)) ∧
    (reason ≠ .noslot → t.cond.recs[(5 : Fin 25)] = s.cond.recs[(5 : Fin 25)]) ∧
    t.pipe = s.pipe ∧ t.builder = s.builder) ∧
  (∀ (e : EventNum) (s : State) (k : Fin 16) (x : Entry) (xs : List Entry), s.acq.state = .running →
    s.aq.records = [] → s.builder.state = .idle → s.aq.snaps[k] = none → (∀ j : Fin 16, j < k → s.aq.snaps[j] ≠ none) →
    ruleViolated s.aq s.timing.serial = false →
    (if s.list.pending then s.list.staged else s.list.active) = x :: xs →
    let t := acceptArrival e s
    ∃ rec, t.aq.records = [rec] ∧ rec.event = e ∧ rec.kind = .full k ∧ rec.gap = s.aq.gap ∧
      t.list = (if s.list.pending then
          { s.list with active := s.list.staged, generation := s.list.generation + 1, pending := false, swap := true }
        else s.list) ∧
      t.builder =
        { state := .building
            { record := rec, generation := if s.list.pending then s.list.generation + 1 else s.list.generation,
              listNew := s.list.pending || s.list.swap, words := [], emitted := 0, suppressed := 0, position := 0,
              flags := 0 },
          inFlight := some { entry := x, event := e, slot := k } }) ∧
  (∀ (e : EventNum) (s : State) (kind : RecordKind), s.aq.records = [] → s.builder.state = .idle →
    let v := ruleViolated s.aq s.timing.serial
    let entries := if s.list.pending then s.list.staged else s.list.active
    (v = true → s.cond.recs[(6 : Fin 25)].cls ≠ .class3) →
    ((s.acq.state = .priming ∧ kind = .nosnap .unprimed) ∨ (s.acq.state = .suspended ∧ kind = .nosnap .suspended) ∨
      (s.acq.state = .running ∧ (v = true ∧ s.aq.degrade = true) ∧ kind = .nosnap .rule) ∨
      (s.acq.state = .running ∧ ¬ (v = true ∧ s.aq.degrade = true) ∧ (∀ k : Fin 16, s.aq.snaps[k] ≠ none) ∧
        kind = .nosnap .noslot) ∨
      (s.acq.state = .running ∧ ¬ (v = true ∧ s.aq.degrade = true) ∧ entries = [] ∧
        ∃ k : Fin 16, s.aq.snaps[k] = none ∧ (∀ j : Fin 16, j < k → s.aq.snaps[j] ≠ none) ∧ kind = .full k)) →
    s.tx.buffer.length + 5 ≤ 4096 →
    let t := acceptArrival e s
    t.aq.records = [] ∧ t.aq.snaps = s.aq.snaps ∧ t.aq.gap = 0 ∧ t.builder = { state := .idle, inFlight := none } ∧
    t.list =
      { (if s.list.pending then { s.list with active := s.list.staged, generation := s.list.generation + 1, pending := false }
         else s.list) with swap := false } ∧
    (∃ rec, rec.event = e ∧ rec.kind = kind ∧ rec.rule = v ∧ rec.gap = s.aq.gap ∧
      t.tx.buffer = s.tx.buffer ++
        fragmentWords
          { record := rec, generation := t.list.generation, listNew := s.list.pending || s.list.swap, words := [],
            emitted := 0, suppressed := 0, position := 0, flags := 0 }
          t.cond.summary s.tx.sourceId) ∧
    t.cond.counters = { s.cond.counters with
      accSeen := s.cond.counters.accSeen + 1, recMade := s.cond.counters.recMade + 1,
      noSnaps := s.cond.counters.noSnaps + (if kind.slot? = none then 1 else 0),
      ruleV := s.cond.counters.ruleV + (if v then 1 else 0), frags := s.cond.counters.frags + 1,
      words := s.cond.counters.words + 5 }) ∧
  (∀ (f : Byte) (s0 : State), let s := beforeEvent s0
    AcceptAlone f s →
    let e : EventNum := if frameEvclear f then 0 else s.timing.event
    let now := if s.timing.counter + 1 < s.timing.turnLength then s.timing.counter + 1 else 0
    ∃ t, exec (.timingFrame f) s0 = .next t ∧ t.timing.serial = s.timing.serial + 1 ∧ t.timing.counter = now ∧
      t.timing.aligned = s.timing.aligned ∧ t.timing.event = e + 1 ∧ t.pipe = s.pipe ∧
      (let u := acceptArrival e { s with timing := t.timing }
       t.aq = u.aq ∧ t.acq = u.acq ∧ t.inj = u.inj ∧ t.list = u.list ∧ t.builder = u.builder ∧ t.cond = u.cond ∧
         t.tx.buffer = u.tx.buffer) ∧
      ∀ (k : Fin 16) (b : Build), s.acq.state = .running → s.aq.records.length < 32 → s.aq.snaps[k] = none →
        (∀ j : Fin 16, j < k → s.aq.snaps[j] ≠ none) → ruleViolated s.aq (s.timing.serial + 1) = false →
        s.builder.state = .building b → s.builder.inFlight.isSome = true →
        ∃ rec, t.aq.records = s.aq.records ++ [rec] ∧ rec.event = e ∧ rec.kind = .full k ∧ rec.gap = s.aq.gap ∧
          rec.refSerial = s.timing.serial + 1 - BitVec.ofNat 32 (s.acq.startL / s.acq.startS) ∧
          rec.crossing = (((now : Int) - (s.acq.startL / s.acq.startS : Nat)) % (s.timing.turnLength : Int)).toNat ∧
          rec.unaligned = !s.timing.aligned)

/-- R58, R59: an accept that finds 32 records becomes a gap and latches AQ_OVERFLOW with its event number; with room in the
list, an accept in STANDBY or DRAINING becomes a gap that latches nothing of its own; and the accept of a timing-link frame is
such an accept, with its event number (R26, R32). R56: with K serials in the history, an accept fewer than W crossings after
the oldest is a rule violation: RULE_VIOL latches and RULEV counts; the history gains the serial and loses its oldest. -/
def Obligations.GapsAndRuleViolations : Prop :=
  (∀ (e : EventNum) (s : State), ruleViolated s.aq s.timing.serial = false →
     let t := acceptArrival e s
     (s.aq.records.length = 32 ∨ s.acq.state = .standby ∨ s.acq.state = .draining →
       t.aq.records = s.aq.records ∧ t.aq.snaps = s.aq.snaps ∧ t.aq.gap = bump 65535 s.aq.gap ∧ t.inj = s.inj ∧
         t.cond.counters = { s.cond.counters with
           accSeen := s.cond.counters.accSeen + 1, accNoRec := s.cond.counters.accNoRec + 1 }) ∧
     (s.aq.records.length = 32 →
       t.cond.recs[(4 : Fin 25)].latch = true ∧
         t.cond.recs[(4 : Fin 25)].count = bump 65535 s.cond.recs[(4 : Fin 25)].count ∧
         (s.cond.recs[(4 : Fin 25)].latch = false → t.cond.recs[(4 : Fin 25)].first = some e)) ∧
     (s.aq.records.length < 32 → s.acq.state = .standby ∨ s.acq.state = .draining →
       t.cond.recs = s.cond.recs ∧ t.aq.throttle = s.aq.throttle ∧ t.tx = s.tx)) ∧
  (∀ (e : EventNum) (s : State) (oldest : Serial) (rest : List Serial), s.aq.history = oldest :: rest →
     s.aq.history.length = s.aq.ruleK →
     let t := ruleCheck e s
     t.aq.history = rest ++ [s.timing.serial] ∧
     ((s.timing.serial - oldest).toNat < s.aq.ruleW →
       t.cond.recs[(6 : Fin 25)].latch = true ∧
         t.cond.recs[(6 : Fin 25)].count = bump 65535 s.cond.recs[(6 : Fin 25)].count ∧
         t.cond.counters = { s.cond.counters with ruleV := s.cond.counters.ruleV + 1 }) ∧
     (s.aq.ruleW ≤ (s.timing.serial - oldest).toNat → t.cond = s.cond)) ∧
  (∀ (f : Byte) (s0 : State), let s := beforeEvent s0
     AcceptAlone f s → ruleViolated s.aq (s.timing.serial + 1) = false →
     let e : EventNum := if frameEvclear f then 0 else s.timing.event
     ∃ t, exec (.timingFrame f) s0 = .next t ∧ t.timing.serial = s.timing.serial + 1 ∧ t.timing.event = e + 1 ∧
       (s.aq.records.length = 32 ∨ s.acq.state = .standby ∨ s.acq.state = .draining →
         t.aq.records = s.aq.records ∧ t.aq.snaps = s.aq.snaps ∧ t.aq.gap = bump 65535 s.aq.gap ∧
           t.cond.counters = { s.cond.counters with
             accSeen := s.cond.counters.accSeen + 1, accNoRec := s.cond.counters.accNoRec + 1 }) ∧
       (s.aq.records.length = 32 →
         t.cond.recs[(4 : Fin 25)].latch = true ∧
           (s.cond.recs[(4 : Fin 25)].latch = false → t.cond.recs[(4 : Fin 25)].first = some e)))

/-! ## Builder and transmitter -/

/-- R136, R137, R141, R142: an IDLE builder takes the head record; a pending commit is applied first; the header fields are
copied, the counts and the assembly are empty, and for a full record the first entry of the active list is handed over. R143,
R145: a NOSNAP record, or a full one with an empty active list, is READY at once, and its fragment of 5 words is appended in the
same event where it fits; here the record is the only one in the list, and acquisition is not DRAINING. As a
command of its own it is what is left to do, which is nothing between commands (assumption log 2); an accept, an append and a
block completion make the record start that follows them themselves. -/
def Obligations.RecordStartBeginsBuild : Prop :=
  (∀ (s0 : State) (r : Record) (rest : List Record) (k : Fin 16) (e : Entry) (es : List Entry), let s := beforeEvent s0
    s.builder.state = .idle →
    s.aq.records = r :: rest → r.kind = .full k →
    (if s.list.pending then s.list.staged else s.list.active) = e :: es →
    exec .recordStart s0 =
      .next { s with
        list := if s.list.pending then
            { s.list with active := s.list.staged, generation := s.list.generation + 1, pending := false, swap := true }
          else s.list,
        builder :=
          { state := .building
              { record := r, generation := if s.list.pending then s.list.generation + 1 else s.list.generation,
                listNew := s.list.pending || s.list.swap, words := [], emitted := 0, suppressed := 0, position := 0,
                flags := 0 },
            inFlight := some { entry := e, event := r.event, slot := k } } }) ∧
  (∀ (s0 : State) (r : Record), let s := beforeEvent s0
    s.builder.state = .idle → s.aq.records = [r] →
    r.kind.slot? = none ∨ (if s.list.pending then s.list.staged else s.list.active) = [] → s.tx.buffer.length + 5 ≤ 4096 →
    s.acq.state ≠ .draining →
    ∃ t, exec .recordStart s0 = .next t ∧ t.aq.records = [] ∧ t.builder = { state := .idle, inFlight := none } ∧
      t.list =
        { (if s.list.pending then { s.list with active := s.list.staged, generation := s.list.generation + 1, pending := false }
           else s.list) with swap := false } ∧
      t.tx.buffer = s.tx.buffer ++
        fragmentWords
          { record := r, generation := t.list.generation, listNew := s.list.pending || s.list.swap, words := [],
            emitted := 0, suppressed := 0, position := 0, flags := 0 }
          s.cond.summary s.tx.sourceId ∧
      (∀ k : Fin 16, t.aq.snaps[k] = if r.kind = .full k then none else s.aq.snaps[k]) ∧
      t.cond = { s.cond with counters := { s.cond.counters with
        frags := s.cond.counters.frags + 1, words := s.cond.counters.words + 5 } })

/-- R118, R125, R142: the completion of an entry that is not the list's last: an emitted result appends its words and its
flags and counts as emitted, a suppressed one counts as suppressed and in SUPPRESSED; OVF hands over LG_OVF with the record's
event number; the next entry is handed over. R143 to R145: the completion of the list's last entry makes the fragment READY,
and where it fits it is appended in the same event; here its record is the only one in the list, and acquisition is not
DRAINING. Where it does not fit it waits READY, its record at the head of the list and its slot held. That LG_OVF latches
before the append takes the class summary is the model's reading (assumption log 7). -/
def Obligations.EntryCompletionTakesResult : Prop :=
  (∀ (s0 : State) (b : Build) (f : InFlight) (snap : Snapshot) (k : Fin 16) (next : Entry) (res : EntryResult),
    let s := beforeEvent s0
    s.builder.state = .building b → s.builder.inFlight = some f → s.aq.snaps[f.slot] = some snap →
    b.record.kind = .full k → s.list.active[b.position + 1]? = some next →
    res = reconstruct f.entry snap[f.entry.channel] s.front.recs[f.entry.channel] s.filt.sets →
    ∃ t, exec .entryCompletion s0 = .next t ∧
      t.builder.inFlight = some { entry := next, event := b.record.event, slot := k } ∧
      (∀ ws, res.words = some ws →
        t.builder.state = .building { b with
          words := b.words ++ ws, emitted := b.emitted + 1, position := b.position + 1,
          flags := b.flags ||| res.flags.bits } ∧
        t.cond.counters = s.cond.counters) ∧
      (res.words = none →
        t.builder.state = .building { b with suppressed := b.suppressed + 1, position := b.position + 1 } ∧
        t.cond.counters = { s.cond.counters with suppressed := s.cond.counters.suppressed + 1 }) ∧
      (res.flags.ovf = true → t.cond.recs[(7 : Fin 25)].latch = true ∧
        (s.cond.recs[(7 : Fin 25)].latch = false → t.cond.recs[(7 : Fin 25)].first = some f.event)) ∧
      (res.flags.ovf = false → t.cond.recs = s.cond.recs) ∧
      t.aq.records = s.aq.records ∧ t.aq.snaps = s.aq.snaps ∧ t.tx.buffer = s.tx.buffer ∧ t.list = s.list ∧
      t.pipe = s.pipe ∧ t.front = s.front ∧ t.ped = s.ped) ∧
  (∀ (s0 : State) (b b' : Build) (f : InFlight) (snap : Snapshot) (r : Record) (k : Fin 16) (res : EntryResult),
    let s := beforeEvent s0
    s.builder.state = .building b → s.builder.inFlight = some f → s.aq.snaps[f.slot] = some snap →
    s.aq.records = [r] → r.kind = .full k → s.list.active[b.position + 1]? = none → s.acq.state ≠ .draining →
    res = reconstruct f.entry snap[f.entry.channel] s.front.recs[f.entry.channel] s.filt.sets →
    b' = (match res.words with
      | some ws =>
        { b with
          words := b.words ++ ws, emitted := b.emitted + 1, position := b.position + 1,
          flags := b.flags ||| res.flags.bits }
      | none => { b with suppressed := b.suppressed + 1, position := b.position + 1 }) →
    s.tx.buffer.length + (5 + b'.words.length) ≤ 4096 →
    ∃ t, exec .entryCompletion s0 = .next t ∧
      t.tx.buffer = s.tx.buffer ++ fragmentWords b' t.cond.summary s.tx.sourceId ∧ t.aq.records = [] ∧
      t.aq.snaps[k] = none ∧ (∀ j : Fin 16, j ≠ k → t.aq.snaps[j] = s.aq.snaps[j]) ∧
      t.builder = { state := .idle, inFlight := none } ∧ t.list = { s.list with swap := false } ∧
      t.cond.counters = { s.cond.counters with
        frags := s.cond.counters.frags + 1,
        words := s.cond.counters.words + BitVec.ofNat 32 (5 + b'.words.length),
        suppressed := s.cond.counters.suppressed + if res.words = none then 1 else 0 }) ∧
  (∀ (s0 : State) (b b' : Build) (f : InFlight) (snap : Snapshot) (res : EntryResult), let s := beforeEvent s0
    s.builder.state = .building b → s.builder.inFlight = some f → s.aq.snaps[f.slot] = some snap →
    s.list.active[b.position + 1]? = none →
    res = reconstruct f.entry snap[f.entry.channel] s.front.recs[f.entry.channel] s.filt.sets →
    b' = (match res.words with
      | some ws =>
        { b with
          words := b.words ++ ws, emitted := b.emitted + 1, position := b.position + 1,
          flags := b.flags ||| res.flags.bits }
      | none => { b with suppressed := b.suppressed + 1, position := b.position + 1 }) →
    4096 < s.tx.buffer.length + (5 + b'.words.length) →
    ∃ t, exec .entryCompletion s0 = .next t ∧ t.builder = { state := .ready b', inFlight := none } ∧
      t.tx.buffer = s.tx.buffer ∧ t.aq.records = s.aq.records ∧ t.aq.snaps = s.aq.snaps ∧ t.list = s.list ∧
      t.cond.counters = { s.cond.counters with
        suppressed := s.cond.counters.suppressed + if res.words = none then 1 else 0 } ∧
      (res.flags.ovf = true → t.cond.recs[(7 : Fin 25)].latch = true) ∧
      (res.flags.ovf = false → t.cond.recs = s.cond.recs))

/-- R67, R68, R145, R203: a READY fragment that fits enters the buffer whole, header, entries and trailer in order, with the
class summary and source id of this moment; FRAGS and WORDS count it, its record and its slot are released and the swap mark
cleared; outside SUSPENDED the throttle goes off when the slots in use fall to lo. Here its record is the only one in the
list, and acquisition is not DRAINING. R144, R155: the block completion that makes room for the fragment appends it in the
same event. R67: of a NOSNAP record it releases no slot and leaves the throttle. R141: with further records in the list the
next record starts in the same event, and a build of it with no entry to hand over is appended too where it fits, or waits
READY (R143). R147, R148, R203: the record flags and the NOSNAP reason of the header. -/
def Obligations.FragmentAppendsWhole : Prop :=
  (∀ (s0 : State) (b : Build) (r : Record) (k : Fin 16), let s := beforeEvent s0
    s.builder.state = .ready b → s.aq.records = [r] →
    r.kind = .full k → s.tx.buffer.length + (5 + b.words.length) ≤ 4096 → s.acq.state ≠ .draining →
    ∃ t, exec .fragmentAppend s0 = .next t ∧
      t.tx.buffer = s.tx.buffer ++
        [0xF7#8 ++ BitVec.ofNat 8 s.tx.sourceId ++ 0#6 ++ BitVec.ofNat 10 (5 + b.words.length),
         b.recordFlags ++ b.record.event,
         s.cond.summary ++ b.generation ++ BitVec.ofNat 3 b.record.kind.reasonCode ++
           BitVec.ofNat 4 (b.record.pulse.getD 0) ++ 0#1 ++ BitVec.ofNat 12 b.record.crossing,
         BitVec.ofNat 16 b.record.gap ++ 0#2 ++ BitVec.ofNat 6 b.emitted ++ 0#2 ++ BitVec.ofNat 6 b.suppressed] ++
        b.words ++ [0x7F#8 ++ b.record.event] ∧
      t.cond = { s.cond with counters := { s.cond.counters with
        frags := s.cond.counters.frags + 1,
        words := s.cond.counters.words + BitVec.ofNat 32 (5 + b.words.length) } } ∧
      t.aq.records = [] ∧ t.aq.snaps[k] = none ∧ (∀ j : Fin 16, j ≠ k → t.aq.snaps[j] = s.aq.snaps[j]) ∧
      (s.acq.state ≠ .suspended → slotsInUse t ≤ s.aq.lo → t.aq.throttle = false) ∧
      (s.acq.state = .suspended ∨ s.aq.lo < slotsInUse t → t.aq.throttle = s.aq.throttle) ∧
      t.list = { s.list with swap := false } ∧ t.builder = { state := .idle, inFlight := none } ∧ t.acq = s.acq ∧
      t.pipe = s.pipe) ∧
  (∀ (s0 : State) (b : Build) (r : Record) (k : Fin 16) (n : Nat), let s := beforeEvent s0
    (∀ tag : Byte, s.ctl.executing ≠ .rset tag false) → s.builder.state = .ready b → s.aq.records = [r] →
    r.kind = .full k → s.tx.begun = some n → (s.tx.buffer.drop n).length + (5 + b.words.length) ≤ 4096 →
    s.acq.state ≠ .draining →
    ∃ t, exec .blockCompletion s0 = .next t ∧
      t.tx.buffer = s.tx.buffer.drop n ++ fragmentWords b s.cond.summary s.tx.sourceId ∧ t.tx.begun = none ∧
      t.aq.records = [] ∧ t.aq.snaps[k] = none ∧ t.builder = { state := .idle, inFlight := none } ∧
      t.list = { s.list with swap := false } ∧ t.cond.counters = { s.cond.counters with
        frags := s.cond.counters.frags + 1,
        words := s.cond.counters.words + BitVec.ofNat 32 (5 + b.words.length) } ∧ t.ctl = s.ctl) ∧
  (∀ (s0 : State) (c : Instr) (base : List LinkWord) (b : Build) (r : Record) (rest : List Record),
    let s := beforeEvent s0
    (c = .fragmentAppend ∧ base = s.tx.buffer) ∨
      (c = .blockCompletion ∧ (∀ tag : Byte, s.ctl.executing ≠ .rset tag false) ∧
        ∃ n, s.tx.begun = some n ∧ base = s.tx.buffer.drop n) →
    s.builder.state = .ready b → s.aq.records = r :: rest → base.length + (5 + b.words.length) ≤ 4096 →
    let buf := base ++ fragmentWords b s.cond.summary s.tx.sourceId
    let entries := if s.list.pending then s.list.staged else s.list.active
    let released := fun t : State =>
      (∀ k : Fin 16, t.aq.snaps[k] = if r.kind = .full k then none else s.aq.snaps[k]) ∧
        (r.kind.slot? = none ∨ s.acq.state = .suspended ∨ s.aq.lo < slotsInUse t → t.aq.throttle = s.aq.throttle) ∧
        (r.kind.slot? ≠ none → s.acq.state ≠ .suspended → slotsInUse t ≤ s.aq.lo → t.aq.throttle = false) ∧
        t.cond.recs = s.cond.recs ∧ t.acq = s.acq
    ∃ t, exec c s0 = .next t ∧
      (rest = [] → s.acq.state ≠ .draining → released t ∧
        t.tx.buffer = buf ∧ t.aq.records = [] ∧ t.builder = { state := .idle, inFlight := none } ∧
          t.list = { s.list with swap := false } ∧
          t.cond.counters = { s.cond.counters with
            frags := s.cond.counters.frags + 1,
            words := s.cond.counters.words + BitVec.ofNat 32 (5 + b.words.length) }) ∧
      (∀ (q : Record) (more : List Record), rest = q :: more →
        let next : Build :=
          { record := q, generation := if s.list.pending then s.list.generation + 1 else s.list.generation,
            listNew := s.list.pending, words := [], emitted := 0, suppressed := 0, position := 0, flags := 0 }
        let started : ReadoutList := { s.list with
          active := entries, generation := next.generation, pending := false, swap := s.list.pending }
        (∀ (k : Fin 16) (x : Entry) (xs : List Entry), q.kind = .full k → entries = x :: xs → released t ∧
          t.tx.buffer = buf ∧ t.aq.records = q :: more ∧ t.list = started ∧
            t.builder = { state := .building next, inFlight := some { entry := x, event := q.event, slot := k } } ∧
            t.cond.counters = { s.cond.counters with
              frags := s.cond.counters.frags + 1,
              words := s.cond.counters.words + BitVec.ofNat 32 (5 + b.words.length) }) ∧
        (q.kind.slot? = none ∨ entries = [] → 4096 < buf.length + 5 → released t ∧
          t.tx.buffer = buf ∧ t.aq.records = q :: more ∧ t.list = started ∧
            t.builder = { state := .ready next, inFlight := none }) ∧
        (q.kind.slot? = none → buf.length + 5 ≤ 4096 → more = [] → s.acq.state ≠ .draining → released t ∧
          t.tx.buffer = buf ++ fragmentWords next s.cond.summary s.tx.sourceId ∧ t.aq.records = [] ∧
            t.list = { started with swap := false } ∧
            t.builder = { state := .idle, inFlight := none }))) ∧
  (∀ b : Build,
    b.recordFlags =
      BitVec.ofBool b.record.unaligned ++ BitVec.ofBool b.record.rule ++ BitVec.ofBool b.record.pulse.isSome ++
        BitVec.ofBool (b.record.kind.slot?.isNone) ++ BitVec.ofBool (decide (0 < b.record.gap)) ++ BitVec.ofBool b.listNew ++
        BitVec.ofBool (b.flags.getLsbD 15 || b.flags.getLsbD 14 || b.flags.getLsbD 13 || b.flags.getLsbD 11 ||
          b.flags.getLsbD 9 || b.flags.getLsbD 8) ++
        BitVec.ofBool (b.flags.getLsbD 6) ∧
    b.record.kind.reasonCode = match b.record.kind with
      | .full _ => 0
      | .nosnap .unprimed => 1
      | .nosnap .suspended => 2
      | .nosnap .rule => 3
      | .nosnap .noslot => 4)

/-- R152 to R155, R158: at a frame boundary a waiting throttle frame goes first, without credit; otherwise a block of up to
the 64 oldest words begins if there is a credit and a word, spending one credit, counting in BLOCKS and ending the stall
episode; otherwise an idle word goes; inside a block there is no boundary. At the completion of the begun block its data words
and the CRC word have been sent and its words leave the buffer; the credit count is not touched. Here nothing follows from it:
a build is under way; or the builder is IDLE with no record in the list, and acquisition is not DRAINING or words are left; or
a READY fragment still does not fit. What either does to an rset that waits for it is said elsewhere (R49). -/
def Obligations.TransmitterUnits : Prop :=
  (∀ s0 : State, let s := beforeEvent s0
     s.tx.begun = none → rsetDue s = false →
     (∀ f, s.tx.waitingFrame = some f → (∀ tag : Byte, s.ctl.executing ≠ .rset tag true) →
       exec .frameBoundary s0 =
         .next { s with tx := { s.tx with
           waitingFrame := none,
           sent := s.tx.sent ++ [if f = .busyOn then 0xE1000001#32 else 0xE1000000#32] } }) ∧
     (s.tx.waitingFrame = none → 1 ≤ s.tx.credits → s.tx.buffer ≠ [] →
       exec .frameBoundary s0 =
         .next { s with
           tx := { s.tx with
             begun := some (min 64 s.tx.buffer.length), credits := s.tx.credits - 1, stallTimer := 0,
             stallMark := false,
             sent := s.tx.sent ++ [0xB5#8 ++ 0#17 ++ BitVec.ofNat 7 (min 64 s.tx.buffer.length)] },
           cond := { s.cond with counters := { s.cond.counters with blocks := s.cond.counters.blocks + 1 } } }) ∧
     (s.tx.waitingFrame = none → s.tx.credits = 0 ∨ s.tx.buffer = [] →
       exec .frameBoundary s0 = .next { s with tx := { s.tx with sent := s.tx.sent ++ [0#32] } })) ∧
  (∀ (s0 : State) (n : Nat), let s := beforeEvent s0
   s.tx.begun = some n → exec .frameBoundary s0 = .next s) ∧
  (∀ (s0 : State) (n : Nat), let s := beforeEvent s0
     (∀ tag : Byte, s.ctl.executing ≠ .rset tag false) →
     s.tx.begun = some n →
     ((∃ b, s.builder.state = .building b ∧ s.builder.inFlight.isSome = true) ∨
       (s.builder.state = .idle ∧ s.aq.records = [] ∧ (s.acq.state ≠ .draining ∨ n < s.tx.buffer.length)) ∨
       (∃ b, s.builder.state = .ready b ∧ 4096 < (s.tx.buffer.drop n).length + (5 + b.words.length))) →
     exec .blockCompletion s0 =
       .next { s with tx := { s.tx with
         buffer := s.tx.buffer.drop n, begun := none,
         sent := s.tx.sent ++ s.tx.buffer.take n ++
           [0xC5#8 ++ 0#8 ++ crc16 (((0xB5#8 ++ 0#17 ++ BitVec.ofNat 7 (s.tx.buffer.take n).length) ::
             s.tx.buffer.take n).flatMap wordBytes)] } })

/-- R48, R137: a part in DRAINING with no record, the builder IDLE and the buffer empty enters STANDBY; a pending commit is
applied with LIST_SWAP_STOP. The completion of the last block does the same. -/
def Obligations.DrainCompletes : Prop :=
  ∀ (s0 : State), let s := beforeEvent s0
    (∀ tag : Byte, s.ctl.executing ≠ .rset tag false) → s.acq.state = .draining →
    s.aq.records = [] → s.builder.state = .idle →
    ∀ c : Instr, (c = .drainComplete ∧ s.tx.buffer = []) ∨
      (c = .blockCompletion ∧ ∃ n, s.tx.begun = some n ∧ s.tx.buffer.length ≤ n) →
    ∃ t, exec c s0 = .next t ∧ t.acq = { s.acq with state := .standby } ∧ t.tx.buffer = [] ∧
      t.list = (if s.list.pending then
          { s.list with active := s.list.staged, generation := s.list.generation + 1, pending := false, swap := true }
        else s.list) ∧
      (s.list.pending = true → t.cond.recs[(24 : Fin 25)].latch = true ∧
        t.cond.recs[(24 : Fin 25)].count = bump 65535 s.cond.recs[(24 : Fin 25)].count) ∧
      (s.list.pending = false → t.cond = s.cond) ∧ t.pipe = s.pipe ∧ t.aq.gap = s.aq.gap

/-- R156, R202: an idle word is ignored; a frame that fails its check or carries a count of 0 is discarded with RL_CREDIT_ERR;
a frame of count 1 to 15 adds its count up to 15 credits, with RL_CREDIT_OVF if the sum is above 15. -/
def Obligations.CreditFrameAdds : Prop :=
  (∀ s0 : State, let s := beforeEvent s0
   exec (.creditFrame 0#32) s0 = .next s) ∧
  (∀ (n : BitVec 4) (s0 : State), let s := beforeEvent s0
    n ≠ 0 → s.tx.credits + n.toNat ≤ 15 →
    exec (.creditFrame (0xA3#8 ++ 0#16 ++ ~~~n ++ n)) s0 =
      .next { s with tx := { s.tx with credits := s.tx.credits + n.toNat } }) ∧
  (∀ (n : BitVec 4) (s0 : State), let s := beforeEvent s0
    n ≠ 0 → 15 < s.tx.credits + n.toNat →
    exec (.creditFrame (0xA3#8 ++ 0#16 ++ ~~~n ++ n)) s0 =
      .next (occur .rlCreditOvf none { s with tx := { s.tx with credits := 15 } })) ∧
  (∀ (w : LinkWord) (s0 : State), let s := beforeEvent s0
    w ≠ 0 → (∀ n : BitVec 4, n ≠ 0 → w ≠ 0xA3#8 ++ 0#16 ++ ~~~n ++ n) →
    exec (.creditFrame w) s0 = .next (occur .rlCreditErr none s))

/-- R159: the crossing arrival that finds the transmitter waiting with the stall timer at its top, the stall limit times 256,
or brings it there, with the episode mark clear, latches RL_STALL and sets the mark. With the mark set no further crossing
arrival of the episode latches, and a frame that comes only counts, up to the top. No such frame is a stall timeout: that the
row then changes nothing, not even the serial, is the model's choice (assumption log 2). -/
def Obligations.StallTimeoutLatches : Prop :=
  ∀ (f : Byte) (s0 : State), let s := beforeEvent s0
    s.tx.begun.getD 0 < s.tx.buffer.length → s.tx.credits = 0 →
    (s.tx.stallMark = false → s.tx.stallTimer + 1 = s.tx.stallLimit * 256 ∨ s.tx.stallTimer = s.tx.stallLimit * 256 →
      ∃ t, exec (.stallTimeout f) s0 = .next t ∧ t.tx.stallTimer = s.tx.stallLimit * 256 ∧ t.tx.stallMark = true ∧
        t.cond.recs[(12 : Fin 25)].latch = true ∧
        t.cond.recs[(12 : Fin 25)].count = bump 65535 s.cond.recs[(12 : Fin 25)].count ∧ t.tx.credits = 0 ∧
        t.tx.begun = s.tx.begun) ∧
    (s.tx.stallMark = true → exec (.stallTimeout f) s0 = .next s ∧
      ∃ t, exec (.timingFrame f) s0 = .next t ∧ t.tx.stallMark = true ∧
        t.tx.stallTimer = (if s.tx.stallTimer < s.tx.stallLimit * 256 then s.tx.stallTimer + 1 else s.tx.stallTimer) ∧
        t.cond.recs[(12 : Fin 25)] = s.cond.recs[(12 : Fin 25)])

/-! ## Conditions -/

/-- R182: an occurrence counts, sets the latch, and records its event number as the first event when the latch was clear; no
other condition's record and no activity counter changes. -/
def Obligations.OccurrenceLatchesCountsAndRecords : Prop :=
  ∀ (c : Cond) (ev : Option EventNum) (s : State), let t := occur c ev s
    t.cond.recs[c.num] =
      { s.cond.recs[c.num] with
        latch := true,
        count := if s.cond.recs[c.num].count < 65535 then s.cond.recs[c.num].count + 1 else s.cond.recs[c.num].count,
        first := if s.cond.recs[c.num].latch then s.cond.recs[c.num].first else ev } ∧
    (∀ i : Fin 25, i ≠ c.num → t.cond.recs[i] = s.cond.recs[i]) ∧ t.cond.counters = s.cond.counters

/-- R46, R69, R70, R184: the raising of class 3 suspends PRIMING and RUNNING with the throttle on; its clearing leads
SUSPENDED to RUNNING with the fill count at L or more and to PRIMING otherwise, and the throttle is decided by the slots in
use; a change that neither raises nor clears class 3 moves neither. -/
def Obligations.Class3MovesAcquisition : Prop :=
  ∀ (g : CondTable → CondTable) (s : State), let t := changeConds g s
    t.cond = g s.cond ∧
    (s.cond.raised .class3 = false → (g s.cond).raised .class3 = true →
      s.acq.state = .priming ∨ s.acq.state = .running →
      t.acq = { s.acq with state := .suspended } ∧ t.aq.throttle = true) ∧
    (s.cond.raised .class3 = true → (g s.cond).raised .class3 = false → s.acq.state = .suspended →
      t.acq = { s.acq with state := if s.acq.startL ≤ s.pipe.fill then .running else .priming } ∧
        t.aq.throttle = (s.aq.throttle && decide (s.aq.lo < slotsInUse s))) ∧
    ((s.cond.raised .class3 = (g s.cond).raised .class3 ∨ s.acq.state = .standby ∨ s.acq.state = .draining) →
      t = { s with cond := g s.cond })

/-! ## Reconstruction -/

/-- R1: round by k adds 2^(k−1) and takes the floor of the quotient by 2^k, halves going up for negative numbers too; round by 0
leaves x. R112: with S_a above 0 the time is the floor of (|S_b|·256 + the floor of S_a/2) by S_a with the sign of S_b, which
rounds to the nearest whole number, halves away from zero. -/
def Obligations.RoundingsOfTheManual : Prop :=
  ((∀ x : Int, roundBy 0 x = x) ∧
     ∀ (k : Nat) (x : Int), 1 ≤ k →
       2 ^ k * roundBy k x ≤ x + 2 ^ (k - 1) ∧ x + 2 ^ (k - 1) < 2 ^ k * (roundBy k x + 1)) ∧
  (∀ sa sb : Int, 0 < sa →
     (0 < sb → rawTime sa sb = (sb * 256 + sa / 2) / sa) ∧
     (sb < 0 → rawTime sa sb = -((-sb * 256 + sa / 2) / sa)) ∧
     (sb = 0 → rawTime sa sb = 0) ∧
     2 * (rawTime sa sb * sa - sb * 256).natAbs ≤ sa.natAbs)

/-- R116, R117: what brings an entry of an enabled channel through: it is emitted when it passes the test on its clamped
amplitude, or when keep-on-flag is on and one of SAT, OVF, CLAMP, HELD and STALE is set; KEPT says the second; otherwise it is
suppressed, and has no words. R119: every other flag of such an entry, emitted or not. R104, R105: SAT and OVF from the codes
of the window against the thresholds, the gain used, and FORCED. R106 to R110: CLAMP, where the amplitude is out of its range.
R111 to R113: NOTIME and TCLAMP. R114, R115: PEAKOUT, from the index of the earliest largest difference. TRIMSTEP and INJ,
from the slots of the window. -/
def Obligations.SuppressionDecides : Prop :=
  (∀ (e : Entry) (snap : ChanSnap) (rec : ChanRec) (sets : Vector FilterSet 8), snap.disabled = false →
    let res := reconstruct e snap rec sets
    let g := gainUsed e.policy (satFlag rec snap.window)
    let set := if g = .hg then sets[rec.hgSet] else sets[rec.lgSet]
    let amp := amplitude g rec.gainRatio (weightedSum set.a (differences g snap.pedestal snap.window))
    let pass := e.suppression = .keep ∨ (e.suppression = .above ∧ (e.threshold : Int) ≤ amp) ∨
      (e.suppression = .abs ∧ e.threshold ≤ amp.natAbs)
    let brought := e.keepOnFlag = true ∧
      (res.flags.sat = true ∨ res.flags.ovf = true ∨ res.flags.clamp = true ∨ res.flags.held = true ∨
        res.flags.stale = true)
    (res.words.isSome = true ↔ pass ∨ brought) ∧ (res.flags.kept = true ↔ ¬ pass ∧ brought) ∧
      res.flags.held = snap.held ∧ res.flags.stale = snap.stale ∧ res.flags.disabled = false) ∧
  (∀ (e : Entry) (snap : ChanSnap) (rec : ChanRec) (sets : Vector FilterSet 8), snap.disabled = false →
    let f := (reconstruct e snap rec sets).flags
    let g : Gain := match e.policy with
      | .auto => if f.sat then .lg else .hg
      | .hg => .hg
      | .lg => .lg
    let d := fun y : Slot => 16 * (((if g = .hg then y.hg else y.lg).toNat : Nat) : Int) - (snap.pedestal.get g : Int)
    let set := if g = .hg then sets[rec.hgSet] else sets[rec.lgSet]
    let sa := (List.zipWith (fun a y => a.toInt * d y) set.a snap.window).sum
    let sb := (List.zipWith (fun b y => b.toInt * d y) set.b snap.window).sum
    let raw := if g = .hg then roundBy 16 sa else roundBy 24 (sa * (rec.gainRatio : Int))
    let timed := (e.timeThreshold : Int) ≤ clampTo (-8388608) 8388607 raw ∧ 0 < sa
    (f.sat = true ↔ ∃ y ∈ snap.window, rec.hgThreshold ≤ y.hg.toNat) ∧
    (f.ovf = true ↔ ∃ y ∈ snap.window, rec.lgThreshold ≤ y.lg.toNat) ∧
    (f.gainLg = true ↔ g = .lg) ∧ (f.forced = true ↔ e.policy ≠ .auto) ∧
    (f.clamp = true ↔ raw < -8388608 ∨ 8388607 < raw) ∧ (f.noTime = true ↔ ¬ timed) ∧
    (f.tClamp = true ↔ timed ∧ (rawTime sa sb < -32768 ∨ 32767 < rawTime sa sb)) ∧
    (∀ (y : Slot) (i : Nat), snap.window[i]? = some y →
      (∀ (z : Slot) (j : Nat), snap.window[j]? = some z → d z ≤ d y ∧ (j < i → d z < d y)) →
      (f.peakOut = true ↔ i < e.peakLo ∨ e.peakHi < i)) ∧
    (f.trimStep = true ↔ ∃ y ∈ snap.window, y.trimStep = true) ∧ (f.inj = true ↔ ∃ y ∈ snap.window, y.inj = true))

/-- R120, R124: the number of words of an emitted entry by its mode, which the head word's length field repeats: FLAGS 1,
RECON 3, RECON_RAW 3 + ⌈N/2⌉, RAW_SEL 1 + ⌈N/2⌉, RAW_BOTH 1 + 2·⌈N/2⌉; and the whole head word, its flags at their bits
(R203), each of which SuppressionDecides gives. R121, R106 to R114: the two
words of RECON and RECON_RAW hold the amplitude with the index of the earliest largest difference, and the time, 0 with NOTIME,
with the code of the gain used at that index. R122, R123: the raw halves, two to a word, hold DISABLED, TRIMSTEP, INJ, CLIP and
code of each slot of the gain used, or of both gains one after the other, each with a filler half where N is odd. R102: the
entry of a DISABLED channel is flags-only
whatever its mode: the head word alone, carrying DISABLED, HELD, STALE and KEPT alone. -/
def Obligations.EmittedEntries : Prop :=
  (∀ (e : Entry) (snap : ChanSnap) (rec : ChanRec) (sets : Vector FilterSet 8) (ws : List LinkWord),
     snap.disabled = false → snap.window.length ≤ 16 → (reconstruct e snap rec sets).words = some ws →
     (ws.length = match e.mode with
       | .flags => 1
       | .recon => 3
       | .reconRaw => 3 + (snap.window.length + 1) / 2
       | .rawSel => 1 + (snap.window.length + 1) / 2
       | .rawBoth => 1 + 2 * ((snap.window.length + 1) / 2)) ∧
     let res := reconstruct e snap rec sets
     let g := gainUsed e.policy (satFlag rec snap.window)
     let code := fun (k : Gain) (y : Slot) => match k with
       | .hg => y.hg
       | .lg => y.lg
     let half := fun (k : Gain) (y : Slot) => BitVec.ofBool y.disabled ++ BitVec.ofBool y.trimStep ++ BitVec.ofBool y.inj ++
       BitVec.ofBool (match k with
         | .hg => y.clipH
         | .lg => y.clipL) ++ code k y
     let halves := fun k : Gain =>
       snap.window.map (half k) ++ (if snap.window.length % 2 = 1 then [0x9000#16] else [])
     let split := fun l : List LinkWord => l.flatMap fun w => [w.extractLsb' 16 16, w.extractLsb' 0 16]
     ∃ tl, ws =
         (BitVec.ofNat 4 e.channel.val ++
           BitVec.ofNat 3 (match e.mode with
             | .flags => 0
             | .recon => 1
             | .reconRaw => 2
             | .rawSel => 3
             | .rawBoth => 4) ++
           BitVec.ofNat 5 ws.length ++ 0#4 ++ res.flags.bits) :: tl ∧
       res.flags.bits =
         BitVec.ofBool res.flags.sat ++ BitVec.ofBool res.flags.ovf ++ BitVec.ofBool res.flags.clamp ++
           BitVec.ofBool res.flags.noTime ++ BitVec.ofBool res.flags.tClamp ++ BitVec.ofBool res.flags.peakOut ++
           BitVec.ofBool res.flags.held ++ BitVec.ofBool res.flags.stale ++ BitVec.ofBool res.flags.disabled ++
           BitVec.ofBool res.flags.trimStep ++ BitVec.ofBool res.flags.inj ++ BitVec.ofBool res.flags.kept ++
           BitVec.ofBool res.flags.forced ++ BitVec.ofBool res.flags.gainLg ++ 0#2 ∧
       res.flags.gainLg = decide (g = .lg) ∧
       (e.mode = .rawSel → split tl = halves g) ∧ (e.mode = .rawBoth → split tl = halves .hg ++ halves .lg) ∧
       (e.mode = .reconRaw → split (tl.drop 2) = halves g) ∧
       (e.mode = .recon ∨ e.mode = .reconRaw →
         let d := fun y : Slot => 16 * ((code g y).toNat : Int) - (snap.pedestal.get g : Int)
         let set := if g = .hg then sets[rec.hgSet] else sets[rec.lgSet]
         let sa := (List.zipWith (fun a y => a.toInt * d y) set.a snap.window).sum
         let sb := (List.zipWith (fun b y => b.toInt * d y) set.b snap.window).sum
         let amp := clampTo (-8388608) 8388607
           (if g = .hg then roundBy 16 sa else roundBy 24 (sa * (rec.gainRatio : Int)))
         let time := if (e.timeThreshold : Int) ≤ amp ∧ 0 < sa then clampTo (-32768) 32767 (rawTime sa sb) else 0
         ∀ (y : Slot) (i : Nat), snap.window[i]? = some y →
           (∀ (z : Slot) (j : Nat), snap.window[j]? = some z → d z ≤ d y ∧ (j < i → d z < d y)) →
           tl.take 2 = [BitVec.ofInt 24 amp ++ 0#4 ++ BitVec.ofNat 4 i, BitVec.ofInt 16 time ++ 0#4 ++ code g y])) ∧
  (∀ (e : Entry) (snap : ChanSnap) (rec : ChanRec) (sets : Vector FilterSet 8), snap.disabled = true →
     ∀ ws, (reconstruct e snap rec sets).words = some ws →
       ws = [BitVec.ofNat 4 e.channel.val ++ 0#3 ++ 1#5 ++ 0#4 ++ (reconstruct e snap rec sets).flags.bits] ∧
       (reconstruct e snap rec sets).flags =
         { sat := false, ovf := false, clamp := false, noTime := false, tClamp := false, peakOut := false,
           held := snap.held, stale := snap.stale, disabled := true, trimStep := false, inj := false,
           kept := (reconstruct e snap rec sets).flags.kept, forced := false, gainLg := false })

/-! ## Trims -/

/-- R85: the 320th sample arrival of a round completes it: the next round begins or the engine enters IDLE, and a channel-gain
not in progress keeps everything. R85 to R87: at the completion of a search round, a channel-gain in progress keeps the
round's bit if its mean is at most 16 times its target, takes its next trial value into its DAC, and keeps P, σ, status and
first-trim flag. R88: the first finishing round keeps its mean and leaves P, σ, status and flag too; at the end of the second
the channel-gain takes no further part: its DAC is v, its first-trim flag clear, P is the mean of the first finishing round
over any value loaded meanwhile (R77; that P is written at the finish is assumption log 30), and σ and status follow from the
difference of the two means. R89: when the last channel-gain has finished, the engine enters IDLE; while another is in
progress, none of them beyond its second finishing round, the trim goes on. R85: of a round's sample arrivals the first 64 are
not summed and the others are, for each channel-gain in progress, and nothing else of the trim changes. R90: a phase slip
aborts: P and σ stay, and each channel-gain still in progress takes status ABORTED and keeps its flag. -/
def Obligations.LongTrimRounds : Prop :=
  (∀ (x : Samples) (s0 : State) (t0 : LongTrim), let s := beforeEvent s0
     s.clk.state = .locked → s.acq.state = .standby → s.trim.engine = .long t0 → t0.arrivals = 319 →
     ∃ t, exec (.trimRoundComplete x) s0 = .next t ∧
       (t.trim.engine = .idle ∨
         ∃ t1, t.trim.engine = .long t1 ∧ t1.round = t0.round + 1 ∧ t1.arrivals = 0) ∧
       (∀ (c : Chan) (g : Gain), t0.searches[c].get g = none →
         t.front.dacs[c].get g = s.front.dacs[c].get g ∧ t.ped.chans[c].gains.get g = s.ped.chans[c].gains.get g ∧
           t.trim.gains[c].get g = s.trim.gains[c].get g) ∧
       (∀ c : Chan, t.ped.chans[c].settings = s.ped.chans[c].settings) ∧ t.front.recs = s.front.recs ∧
       t.pipe.w = s.pipe.w ∧ t.pipe.fill = s.pipe.fill ∧ t.acq = s.acq ∧ t.clk = s.clk ∧ t.timing = s.timing ∧
       t.tx.buffer = s.tx.buffer ∧ t.ctl = s.ctl) ∧
  (∀ (x : Samples) (s0 : State) (t0 : LongTrim) (c : Chan) (g : Gain) (q : Search), let s := beforeEvent s0
     s.clk.state = .locked → s.acq.state = .standby → s.trim.engine = .long t0 → t0.arrivals = 319 →
     t0.searches[c].get g = some q → s.front.recs[c].enable = true →
     let mean := (roundBy 8 (16 * ((q.sum + (x[c].get g).toNat : Nat) : Int))).toNat
     (t0.round < q.rounds →
       let trial := q.value + 2 ^ (q.rounds - 1 - t0.round)
       let v := if mean ≤ 16 * q.target then trial else q.value
       ∃ t, exec (.trimRoundComplete x) s0 = .next t ∧
         t.front.dacs[c].get g =
           (if t0.round + 1 < q.rounds then v + 2 ^ (q.rounds - 1 - (t0.round + 1)) else v) ∧
         (∃ t1, t.trim.engine = .long t1 ∧ t1.round = t0.round + 1 ∧ t1.arrivals = 0 ∧
           t1.searches[c].get g = some { q with value := v, sum := 0 }) ∧
         (t.ped.chans[c].gains.get g).p = (s.ped.chans[c].gains.get g).p ∧
         (t.ped.chans[c].gains.get g).sigma = (s.ped.chans[c].gains.get g).sigma ∧
         t.trim.gains[c].get g = s.trim.gains[c].get g ∧ t.pipe.w = s.pipe.w ∧ t.acq = s.acq) ∧
     (t0.round = q.rounds →
       ∃ t, exec (.trimRoundComplete x) s0 = .next t ∧
         t.front.dacs[c].get g = (if 247 < q.value then q.value - 8 else q.value + 8) ∧
         (∃ t1, t.trim.engine = .long t1 ∧ t1.round = t0.round + 1 ∧ t1.arrivals = 0 ∧
           t1.searches[c].get g = some { q with meanV := mean, sum := 0 }) ∧
         (t.ped.chans[c].gains.get g).p = (s.ped.chans[c].gains.get g).p ∧
         (t.ped.chans[c].gains.get g).sigma = (s.ped.chans[c].gains.get g).sigma ∧
         t.trim.gains[c].get g = s.trim.gains[c].get g) ∧
     (t0.round = q.rounds + 1 →
       let diff : Int := if 247 < q.value then (q.meanV : Int) - mean else (mean : Int) - q.meanV
       ∃ t, exec (.trimRoundComplete x) s0 = .next t ∧ t.front.dacs[c].get g = q.value ∧
         (t.trim.gains[c].get g).first = false ∧ (t.ped.chans[c].gains.get g).p = q.meanV ∧
         (diff ≤ 0 → (t.trim.gains[c].get g).status = .slopeBad ∧ t.cond.recs[(9 : Fin 25)].latch = true ∧
           (t.ped.chans[c].gains.get g).sigma = (s.ped.chans[c].gains.get g).sigma) ∧
         (0 < diff → (t.ped.chans[c].gains.get g).sigma = (clampTo 1 255 (roundBy 3 diff)).toNat ∧
           ((q.value = 0 ∧ 16 * q.target < q.meanV) ∨
               (q.value = 255 ∧ q.meanV + 16 * q.hysteresis < 16 * q.target) →
             (t.trim.gains[c].get g).status = .limit ∧ t.cond.recs[(8 : Fin 25)].latch = true) ∧
           (¬ ((q.value = 0 ∧ 16 * q.target < q.meanV) ∨
               (q.value = 255 ∧ q.meanV + 16 * q.hysteresis < 16 * q.target)) →
             (t.trim.gains[c].get g).status = .ok)) ∧
         ((∀ (d : Chan) (h : Gain) (p : Search), t0.searches[d].get h = some p → t0.round = p.rounds + 1) →
           t.trim.engine = .idle) ∧
         (∀ (d : Chan) (h : Gain) (p : Search), SearchesInRound s → t0.searches[d].get h = some p →
           t0.round ≠ p.rounds + 1 →
           ∃ t1, t.trim.engine = .long t1 ∧ t1.round = t0.round + 1 ∧ t1.arrivals = 0 ∧
             t1.searches[c].get g = none ∧ (t1.searches[d].get h).isSome = true))) ∧
  (∀ (x : Samples) (s0 : State) (t0 : LongTrim), let s := beforeEvent s0
     s.clk.state = .locked → s.acq.state = .standby →
     s.trim.engine = .long t0 → t0.arrivals < 319 →
     ∃ t1 : LongTrim, exec (.sampleArrival x) s0 =
       .next { s with
         pipe := { s.pipe with
           chans := Vector.ofFn fun c => { s.pipe.chans[c] with injCount := s.pipe.chans[c].injCount - 1 } },
         trim := { s.trim with engine := .long t1 } } ∧
       t1.round = t0.round ∧ t1.arrivals = t0.arrivals + 1 ∧
       ∀ (c : Chan) (g : Gain),
         (t0.searches[c].get g = none → t1.searches[c].get g = none) ∧
         ∀ q : Search, t0.searches[c].get g = some q → s.front.recs[c].enable = true →
           t1.searches[c].get g = some (if t0.arrivals < 64 then q else { q with sum := q.sum + (x[c].get g).toNat })) ∧
  (∀ (s0 : State) (t0 : LongTrim), let s := beforeEvent s0
     s.clk.state = .locked → s.trim.engine = .long t0 →
     ∃ t, exec .phaseSlip s0 = .next t ∧ t.ped = s.ped ∧ t.front = s.front ∧ t.trim.engine = .idle ∧
       t.cond.recs[(10 : Fin 25)].latch = true ∧
       t.cond.recs[(10 : Fin 25)].count = bump 65535 s.cond.recs[(10 : Fin 25)].count ∧
       ∀ (c : Chan) (g : Gain), t.trim.gains[c].get g =
         if (t0.searches[c].get g).isSome then { s.trim.gains[c].get g with status := .aborted }
         else s.trim.gains[c].get g)

/-- R94, R95: in manual trim mode the sample arrival that brings the settle count to 0 starts the summing of a waiting
measurement; the 256th summed one keeps the mean as valid and sends the trms reply: channel, gain, DAC and mean. A settle
count above 1 counts down, and a measurement below its 256th sample adds the code. A frame held stays held: it is executed
when the reply's last byte has gone (R194, assumption log 3). That the reply carries the channel-gain as two bytes is the
model's choice (assumption log 35). -/
def Obligations.ManualMeasurementCompletes : Prop :=
  ∀ (x : Samples) (s0 : State) (m : ManualTrim), let s := beforeEvent s0
    s.clk.state = .locked → s.acq.state = .standby →
    s.trim.engine = .manual m →
    (m.settle = 1 →
      ∃ t, exec (.manualSettleExpiry x) s0 = .next t ∧ t.trim.engine = .manual { m with settle := 0 } ∧
        t.trim.gains = s.trim.gains ∧ t.front = s.front ∧ t.ped = s.ped ∧ t.ctl = s.ctl) ∧
    (let counted : State := { s with pipe := { s.pipe with
        chans := Vector.ofFn fun c => { s.pipe.chans[c] with injCount := s.pipe.chans[c].injCount - 1 } } };
      (1 < m.settle →
        exec (.sampleArrival x) s0 =
          .next { counted with trim := { s.trim with engine := .manual { m with settle := m.settle - 1 } } }) ∧
      (m.settle = 0 → m.measuring = none → exec (.sampleArrival x) s0 = .next counted) ∧
      (∀ k sum : Nat, m.settle = 0 → m.measuring = some { count := k, sum := sum } → k < 255 →
        s.front.recs[m.chan].enable = true →
        exec (.sampleArrival x) s0 =
          .next { counted with trim := { s.trim with engine := .manual { m with
            measuring := some { count := k + 1, sum := sum + (x[m.chan].get m.gain).toNat } } } })) ∧
    (∀ (sum : Nat) (tag : Byte), m.settle = 0 → m.measuring = some { count := 255, sum := sum } →
      s.ctl.executing = .trms tag → s.front.recs[m.chan].enable = true →
      let mean := (roundBy 8 (16 * ((sum + (x[m.chan].get m.gain).toNat : Nat) : Int))).toNat
      let t := answer tag .ok
        (u8 m.chan.val ++ u8 (if m.gain = .hg then 0 else 1) ++ u8 (s.front.dacs[m.chan].get m.gain) ++ u16 mean)
        { s with
          pipe := { s.pipe with
            chans := Vector.ofFn fun c => { s.pipe.chans[c] with injCount := s.pipe.chans[c].injCount - 1 } },
          trim := { s.trim with engine := .manual { m with lastMean := mean, valid := true, measuring := none } } }
      exec (.trmsComplete x) s0 = .next t ∧ t.ctl.buffer = s.ctl.buffer)

/-! ## Commands: Front End, pipeline, timing -/

/-- R4, R200: in STANDBY, outside a long trim, a chan write of a legal record replaces the channel's record and replies OK with
it; a channel alone reads its record in every state; outside STANDBY a write is refused BADSTATE, and during a long trim
BUSY. That the write's reply has the layout of the readback is the model's choice (assumption log 22). -/
def Obligations.ChanWritesAndReadsRecord : Prop :=
  ∀ (tag : Byte) (s : State) (c : Chan) (rec : ChanRec), TakesRequests s → rec.Legal →
    (s.acq.state = .standby → inLong s = false →
      exec (.chan { tag := tag, payload := chanRecBytes c rec }) s =
        .next (answer tag .ok (chanRecBytes c rec)
          { s with front := { s.front with recs := s.front.recs.set c.val rec } })) ∧
    exec (.chan { tag := tag, payload := [BitVec.ofNat 8 c.val] }) s =
      .next (answer tag .ok (chanRecBytes c s.front.recs[c]) s) ∧
    (s.acq.state ≠ .standby →
      exec (.chan { tag := tag, payload := chanRecBytes c rec }) s = .next (answer tag .badState [] s)) ∧
    (s.acq.state = .standby → inLong s = true →
      exec (.chan { tag := tag, payload := chanRecBytes c rec }) s = .next (answer tag .busy [] s))

/-- R15: an accepted pipe write clamps L to N..480, raises an odd L by one with S equal to 2, replies with what it applied, and
says CLAMPED when the applied L differs from the requested one; N outside 3..16 is refused BADARG. R31: an accepted turn write
replaces the three settings, sets the crossing counter to 0 and clears the aligned flag; outside STANDBY it is refused BADSTATE;
a bound not below the turn length is refused BADARG. -/
def Obligations.PipeAndTurnWrites : Prop :=
  (∀ (tag : Byte) (s : State) (l n : Nat), TakesRequests s → s.acq.state = .standby → l < 65536 → n < 256 →
     let clamped := max n (min l 480)
     let applied := if s.clk.s = 2 ∧ clamped % 2 = 1 then clamped + 1 else clamped
     (3 ≤ n → n ≤ 16 →
       exec (.pipe { tag := tag, payload := u16 l ++ u8 n }) s =
         .next (answer tag (if applied = l then .ok else .clamped) (u16 applied ++ u8 n)
           { s with pipe := { s.pipe with latency := applied, window := n } })) ∧
     (n < 3 ∨ 16 < n → exec (.pipe { tag := tag, payload := u16 l ++ u8 n }) s = .next (answer tag .badArg [] s))) ∧
  (∀ (tag : Byte) (s : State) (n qf qt : Nat), TakesRequests s → n < 65536 → qf < 65536 → qt < 65536 →
     (s.acq.state = .standby → 64 ≤ n → n ≤ 4095 → qf < n → qt < n →
       exec (.turn { tag := tag, payload := u16 n ++ u16 qf ++ u16 qt }) s =
         .next (answer tag .ok (u16 n ++ u16 qf ++ u16 qt)
           { s with timing := { s.timing with
             turnLength := n, quietFrom := qf, quietTo := qt, counter := 0, aligned := false } })) ∧
     (s.acq.state ≠ .standby →
       exec (.turn { tag := tag, payload := u16 n ++ u16 qf ++ u16 qt }) s = .next (answer tag .badState [] s)) ∧
     (s.acq.state = .standby → n < 64 ∨ 4095 < n ∨ n ≤ qf ∨ n ≤ qt →
       exec (.turn { tag := tag, payload := u16 n ++ u16 qf ++ u16 qt }) s = .next (answer tag .badArg [] s)))

/-- R16, R38: an accepted clks write in STANDBY sets S and the phase, raises an odd L by one when S becomes 2, and restarts lock
acquisition: ACQUIRING with a crossing clock present, UNLOCKED without; CLK_UNLOCK does not latch, and a synthesiser that was
LOCKED departs. -/
def Obligations.ClksRestartsLock : Prop :=
  ∀ (tag : Byte) (s : State) (n p : Nat), TakesRequests s → s.acq.state = .standby → s.trim.engine = .idle → 1 ≤ n →
    n ≤ 2 → p ≤ 63 →
    ∃ t, exec (.clks { tag := tag, payload := u8 n ++ u8 p }) s = .next t ∧
      t.clk = { s := n, phase := p, state := if s.timing.link = .noSignal then .unlocked else .acquiring,
                lockCount := 0 } ∧
      t.pipe.latency = (if n = 2 ∧ s.pipe.latency % 2 = 1 then s.pipe.latency + 1 else s.pipe.latency) ∧
      t.pipe.window = s.pipe.window ∧ t.pipe.w = s.pipe.w ∧
      (s.clk.state = .locked → t.pipe.fill = 0 ∧ t.inj.state = .disarmed ∧ t.integ.scan = .idle) ∧
      (s.clk.state ≠ .locked → t.pipe.fill = s.pipe.fill ∧ t.inj = s.inj ∧ t.integ = s.integ) ∧
      t.inj.pending = s.inj.pending ∧ t.acq = s.acq ∧ t.cond = s.cond ∧ t.timing = s.timing ∧ t.front = s.front ∧
      Replies tag .ok (u8 n ++ u8 p ++ u8 (if s.timing.link = .noSignal then 0 else 1)) s t

/-- R17: frze freezes the named channels and replies with the freeze mask. R18: thaw clears the freeze flag and the refill
count of each named channel that is frozen, leaves the others as they are, and has no readback form. R20: peek of a frozen
channel replies with the newest index and the slots from newest − offset − count + 1 to newest − offset, oldest first; of a
channel that is not frozen it is refused BADSTATE. Nothing else changes. -/
def Obligations.FreezeThawAndPeek : Prop :=
  (∀ (tag m1 m0 : Byte) (s : State), TakesRequests s →
     ∃ t, exec (.frze { tag := tag, payload := [m1, m0] }) s = .next t ∧
       (∀ c : Chan, t.pipe.chans[c] =
         { s.pipe.chans[c] with frozen := s.pipe.chans[c].frozen || (m1 ++ m0).getLsbD c.val }) ∧
       (∃ mask : BitVec 16, (∀ c : Chan, mask.getLsbD c.val = t.pipe.chans[c].frozen) ∧
         t = answer tag .ok [mask.extractLsb' 8 8, mask.extractLsb' 0 8] { s with pipe := t.pipe }) ∧
       t.pipe = { s.pipe with chans := t.pipe.chans }) ∧
  (∀ (tag : Byte) (s : State), TakesRequests s →
     (∀ m1 m0 : Byte, ∃ t, exec (.thaw { tag := tag, payload := [m1, m0] }) s = .next t ∧
       (∀ c : Chan, t.pipe.chans[c] =
         if (m1 ++ m0).getLsbD c.val = true ∧ s.pipe.chans[c].frozen = true then
           { s.pipe.chans[c] with frozen := false, refill := 0 }
         else s.pipe.chans[c]) ∧
       (∃ mask : BitVec 16, (∀ c : Chan, mask.getLsbD c.val = t.pipe.chans[c].frozen) ∧
         t = answer tag .ok [mask.extractLsb' 8 8, mask.extractLsb' 0 8] { s with pipe := t.pipe }) ∧
       t.pipe = { s.pipe with chans := t.pipe.chans }) ∧
     ∀ p : List Byte, p.length ≠ 2 → exec (.thaw { tag := tag, payload := p }) s = .next (answer tag .badLen [] s)) ∧
  (∀ (tag : Byte) (s : State) (c : Chan) (off n : Nat), TakesRequests s → 1 ≤ n → n ≤ 32 → off + n ≤ 512 →
     (s.pipe.chans[c].frozen = true →
       exec (.peek { tag := tag, payload := u8 c.val ++ u16 off ++ u8 n }) s =
         .next (answer tag .ok (u8 c.val ++ u16 off ++ u8 n ++ u16 s.pipe.chans[c].newest.val ++
           (List.range n).flatMap (fun i => slotBytes (ringRead s.pipe.chans[c].ring
             ((s.pipe.chans[c].newest.val + 512 - off - n + 1 + i) % 512)))) s)) ∧
     (s.pipe.chans[c].frozen = false →
       exec (.peek { tag := tag, payload := u8 c.val ++ u16 off ++ u8 n }) s = .next (answer tag .badState [] s)))

/-! ## Commands: acquisition -/

/-- R42: a strt that passes its checks copies L, N and S, sets the fill count and every refill count to 0, and enters PRIMING,
or SUSPENDED with the throttle on when class 3 is raised; the reply carries the state entered and the start copy. R41: the
checks in their order: BADLEN; NOTSTANDBY; NOLOCK; TRIM; FILTER with the lowest-numbered failing channel and its gain. A
refused strt changes nothing but the reply. -/
def Obligations.StrtStartsRunOrRefuses : Prop :=
  (∀ (tag : Byte) (s : State), TakesRequests s → s.acq.state = .standby → s.clk.state = .locked → inLong s = false →
     (∀ c : Chan, s.front.recs[c].enable = true →
       s.filt.sets[s.front.recs[c].hgSet].length = s.pipe.window ∧
         s.filt.sets[s.front.recs[c].lgSet].length = s.pipe.window) →
     ∃ t, exec (.strt { tag := tag, payload := [] }) s = .next t ∧
       t.acq = { state := if class3 s then .suspended else .priming, startL := s.pipe.latency, startN := s.pipe.window,
                 startS := s.clk.s } ∧
       t.pipe = { s.pipe with fill := 0, chans := Vector.ofFn fun c => { s.pipe.chans[c] with refill := 0 } } ∧
       t.aq = { s.aq with throttle := s.aq.throttle || class3 s } ∧
       Replies tag .ok (u8 (if class3 s then 3 else 1) ++ u16 s.pipe.latency ++ u8 s.pipe.window ++ u8 s.clk.s) s t ∧
       t.front = s.front ∧ t.timing = s.timing ∧ t.clk = s.clk ∧ t.ped = s.ped ∧ t.trim = s.trim ∧ t.filt = s.filt ∧
       t.list = s.list ∧ t.builder = s.builder ∧ t.tx.buffer = s.tx.buffer ∧ t.inj = s.inj ∧ t.integ = s.integ ∧
       t.cond = s.cond) ∧
  (∀ (tag : Byte) (s : State), TakesRequests s →
     (∀ p : List Byte, p ≠ [] → exec (.strt { tag := tag, payload := p }) s = .next (answer tag .badLen [] s)) ∧
     (s.acq.state ≠ .standby →
       exec (.strt { tag := tag, payload := [] }) s = .next (answer tag .badState (u8 0 ++ u8 s.acq.state.code) s)) ∧
     (s.acq.state = .standby → s.clk.state ≠ .locked →
       exec (.strt { tag := tag, payload := [] }) s = .next (answer tag .badState (u8 1 ++ u8 0) s)) ∧
     (s.acq.state = .standby → s.clk.state = .locked → inLong s = true →
       exec (.strt { tag := tag, payload := [] }) s = .next (answer tag .badState (u8 2 ++ u8 0) s)) ∧
     (s.acq.state = .standby → s.clk.state = .locked → inLong s = false →
       ∀ c : Chan, s.front.recs[c].enable = true →
         (s.filt.sets[s.front.recs[c].hgSet].length ≠ s.pipe.window ∨
           s.filt.sets[s.front.recs[c].lgSet].length ≠ s.pipe.window) →
         (∀ d : Chan, d < c → s.front.recs[d].enable = true →
           s.filt.sets[s.front.recs[d].hgSet].length = s.pipe.window ∧
             s.filt.sets[s.front.recs[d].lgSet].length = s.pipe.window) →
         exec (.strt { tag := tag, payload := [] }) s =
           .next (answer tag .badState (u8 3 ++ u8 0 ++ u8 c.val ++
             u8 (if s.filt.sets[s.front.recs[c].hgSet].length ≠ s.pipe.window then 0 else 1)) s)))

/-- R47, R48: in PRIMING, RUNNING or SUSPENDED stop enters DRAINING while a record, a build or a word is left, and STANDBY where
none is; the reply carries the state entered; in STANDBY and DRAINING it changes nothing but the reply. -/
def Obligations.StopDrains : Prop :=
  ∀ (tag : Byte) (s : State), TakesRequests s →
    (s.acq.state = .priming ∨ s.acq.state = .running → drained s = false →
      exec (.stop { tag := tag, payload := [] }) s =
        .next (answer tag .ok [4] { s with acq := { s.acq with state := .draining } })) ∧
    (s.acq.state = .suspended → drained s = false →
      ∃ t, exec (.stop { tag := tag, payload := [] }) s = .next t ∧ t.acq = { s.acq with state := .draining } ∧
        t.aq = { s.aq with throttle := s.aq.throttle && decide (s.aq.lo < slotsInUse s) } ∧ t.pipe = s.pipe ∧
        t.cond = s.cond) ∧
    (s.acq.state = .priming ∨ s.acq.state = .running ∨ s.acq.state = .suspended → s.aq.records = [] →
      s.builder.state = .idle → s.tx.buffer = [] →
      ∃ t, exec (.stop { tag := tag, payload := [] }) s = .next t ∧ t.acq = { s.acq with state := .standby } ∧
        Replies tag .ok [0] s t ∧ t.list.pending = false ∧ t.pipe = s.pipe) ∧
    (s.acq.state = .standby ∨ s.acq.state = .draining →
      exec (.stop { tag := tag, payload := [] }) s = .next (answer tag .ok [BitVec.ofNat 8 s.acq.state.code] s))

/-- R21, R49 to R53: what rset sets and what it keeps, block by block, from every acquisition state and in manual trim mode;
the reply is sent at once when no block is begun and the throttle was off, and waits otherwise, until the block has finished
and the BUSY-OFF has been sent; the block completion or frame boundary that completes the reset has it sent. What the reply
carries is the model's reading (assumption log 10), that the measurement counter keeps its value is the
model's choice (assumption log 36), and that RSET_COMPLETE finds nothing left to do between commands is assumption log 2. -/
def Obligations.RsetResetsAndCompletes : Prop :=
  (∀ (tag : Byte) (s : State), PortIdle s →
     ∃ t, exec (.rset { tag := tag, payload := [] }) s = .next t ∧ t.acq = { s.acq with state := .standby } ∧
       t.pipe = { s.pipe with
         fill := 0,
         chans := Vector.ofFn fun c => { s.pipe.chans[c] with refill := 0, injCount := 0, trimStepCount := 0 } } ∧
       t.front = s.front ∧ t.timing = s.timing ∧ t.clk = s.clk ∧ t.filt = s.filt ∧
       t.aq = { s.aq with
         records := [], snaps := Vector.ofFn fun _ => none, gap := 0, history := [], throttle := false, recordMark := 0,
         slotMark := 0 } ∧
       t.builder = { state := .idle, inFlight := none } ∧
       t.tx = { s.tx with
         buffer := s.tx.buffer.take (s.tx.begun.getD 0), credits := 0, stallTimer := 0, stallMark := false,
         waitingFrame := if s.aq.throttle then some .busyOff else s.tx.waitingFrame } ∧
       (∀ (c : Chan) (g : Gain), t.ped.chans[c].gains.get g =
           { s.ped.chans[c].gains.get g with count := 0, sum := 0, blank := false } ∧
         t.ped.chans[c].settings = s.ped.chans[c].settings ∧
         t.trim.gains[c].get g =
           match s.trim.engine with
           | .long t0 =>
             if (t0.searches[c].get g).isSome then { s.trim.gains[c].get g with status := .aborted }
             else s.trim.gains[c].get g
           | .idle => s.trim.gains[c].get g
           | .manual _ => s.trim.gains[c].get g) ∧
       t.trim.engine = .idle ∧ t.inj = { s.inj with state := .disarmed, pending := [] } ∧
       t.integ = { s.integ with scan := .idle } ∧
       t.list = (if s.list.pending then
           { s.list with active := s.list.staged, generation := s.list.generation + 1, pending := false, swap := true }
         else s.list) ∧
       t.cond.counters = Counters.zero ∧
       (∀ i : Fin 25, i ≠ 10 → i ≠ 24 → t.cond.recs[i] = s.cond.recs[i]) ∧
       (inLong s = true → t.cond.recs[(10 : Fin 25)].latch = true) ∧
       (s.list.pending = true → t.cond.recs[(24 : Fin 25)].latch = true) ∧
       (s.tx.begun = none → s.aq.throttle = false → Replies tag .ok [0] s t) ∧
       (s.tx.begun ≠ none ∨ s.aq.throttle = true → t.ctl = { s.ctl with executing := .rset tag s.aq.throttle })) ∧
  (∀ (tag : Byte) (s0 : State) (n : Nat), let s := beforeEvent s0
     s.acq.state = .standby → s.aq.records = [] →
     s.builder.state = .idle →
     (s.ctl.executing = .rset tag false → s.tx.begun = some n →
       exec .blockCompletion s0 =
         .next (answer tag .ok [0] { s with
           tx := { s.tx with
             buffer := s.tx.buffer.drop n, begun := none,
             sent := s.tx.sent ++ s.tx.buffer.take n ++ [crcWord (s.tx.buffer.take n)] } })) ∧
     (s.ctl.executing = .rset tag true → s.tx.begun = none → s.tx.waitingFrame = some .busyOff →
       exec .frameBoundary s0 =
         .next (answer tag .ok [0] { s with
           tx := { s.tx with waitingFrame := none, sent := s.tx.sent ++ [0xE1000000#32] } })) ∧
     (s.ctl.executing = .rset tag true → s.tx.begun = some n →
       exec .blockCompletion s0 =
         .next { s with tx := { s.tx with
           buffer := s.tx.buffer.drop n, begun := none,
           sent := s.tx.sent ++ s.tx.buffer.take n ++ [crcWord (s.tx.buffer.take n)] } })) ∧
  (∀ (tag : Byte) (s0 : State), let s := beforeEvent s0
     s.ctl.executing = .rset tag false → s.tx.begun = none →
     exec .rsetComplete s0 = .next (answer tag .ok [BitVec.ofNat 8 s.acq.state.code] s)) ∧
  (∀ s0 : State, let s := beforeEvent s0
   rsetDue s = false → exec .rsetComplete s0 = .next s)

/-! ## Commands: settings, trims, lists, injector, scan, conditions -/

/-- R57, R72, R150, R160, R178: an accepted write of rule, busy, srci, stlm or intl replaces the settings it carries and replies
OK with them. rule empties the history; busy sets the throttle against the slots in use; stlm lowers the stall timer to the new
top if it stands above it. That the reply of busy ends with the throttle state is the model's choice (assumption log 8). -/
def Obligations.SettingWritesReplace : Prop :=
  ∀ (tag : Byte) (s : State), TakesRequests s →
    (∀ (k w : Nat) (d : Bool), k ≤ 8 → 1 ≤ w → w ≤ 65535 →
      exec (.rule { tag := tag, payload := u8 k ++ u16 w ++ u8 (flagCode d) }) s =
        .next (answer tag .ok (u8 k ++ u16 w ++ u8 (flagCode d))
          { s with aq := { s.aq with ruleK := k, ruleW := w, degrade := d, history := [] } })) ∧
    (∀ hi lo : Nat, 1 ≤ hi → hi ≤ 16 → lo < hi →
      let on : Bool :=
        if s.aq.throttle then decide (s.acq.state = .suspended ∨ lo < slotsInUse s) else decide (hi ≤ slotsInUse s)
      exec (.busy { tag := tag, payload := u8 hi ++ u8 lo }) s =
        .next (answer tag .ok (u8 hi ++ u8 lo ++ u8 (flagCode on))
          { s with
            aq := { s.aq with hi := hi, lo := lo, throttle := on },
            tx := { s.tx with
              waitingFrame := if on = s.aq.throttle then s.tx.waitingFrame
                else some (if on then .busyOn else .busyOff) } })) ∧
    (∀ v : Nat, v ≤ 255 →
      exec (.srci { tag := tag, payload := u8 v }) s =
        .next (answer tag .ok (u8 v) { s with tx := { s.tx with sourceId := v } })) ∧
    (∀ n : Nat, 1 ≤ n → n ≤ 65535 →
      exec (.stlm { tag := tag, payload := u16 n }) s =
        .next (answer tag .ok (u16 n)
          { s with tx := { s.tx with stallLimit := n, stallTimer := min s.tx.stallTimer (n * 256) } })) ∧
    (∀ v : Nat, v ≤ 16777215 →
      exec (.intl { tag := tag, payload := u24 v }) s =
        .next (answer tag .ok (u24 v) { s with integ := { s.integ with limit := v } }))

/-- R76, R77: an accepted trks write replaces the seven settings of each masked channel and empties its accumulators; pedl
sets P of the selected gains of the masked channels, a value above 65520 clamped with PED_RANGE and status CLAMPED. The layout
of the trks readback is the model's reading (assumption log 22). -/
def Obligations.TrackingCommands : Prop :=
  ∀ (tag : Byte) (s : State), TakesRequests s →
    (∀ (mask : ChanMask) (t : TrackSettings), t.Legal →
      exec (.trks { tag := tag, payload := maskBytes mask ++ trackSettingBytes t }) s =
        .next (answer tag .ok (maskBytes mask ++ trackSettingBytes t)
          { s with ped := { s.ped with
            chans := Vector.ofFn fun c =>
              if mask.getLsbD c.val then
                { s.ped.chans[c] with
                  tracking := t.tracking, autoTrim := t.autoTrim, target := t.target, hysteresis := t.hysteresis,
                  blockExp := t.blockExp, updateExp := t.updateExp,
                  gains := ⟨{ s.ped.chans[c].gains.hg with count := 0, sum := 0 },
                            { s.ped.chans[c].gains.lg with count := 0, sum := 0 }⟩ }
              else s.ped.chans[c] } })) ∧
    (∀ c : Chan,
      exec (.trks { tag := tag, payload := u8 c.val }) s =
        .next (answer tag .ok
          (trackSettingBytes s.ped.chans[c].settings ++
            [s.ped.chans[c].gains.hg, s.ped.chans[c].gains.lg].flatMap fun g =>
              u16 g.p ++ u8 g.sigma ++ u16 g.count ++ u8 (flagCode g.blank)) s)) ∧
    (∀ (mask : ChanMask) (g v : Nat), g ≤ 2 → v ≤ 65535 →
      let loaded : State := { s with ped := { s.ped with
        chans := Vector.ofFn fun c =>
          if mask.getLsbD c.val then
            { s.ped.chans[c] with
              gains := ⟨if g = 1 then s.ped.chans[c].gains.hg else { s.ped.chans[c].gains.hg with p := min v 65520 },
                        if g = 0 then s.ped.chans[c].gains.lg else { s.ped.chans[c].gains.lg with p := min v 65520 }⟩ }
          else s.ped.chans[c] } }
      exec (.pedl { tag := tag, payload := maskBytes mask ++ u8 g ++ u16 v }) s =
        .next (if v ≤ 65520 then answer tag .ok (u16 v) loaded
          else answer tag .clamped (u16 65520) (occur .pedRange none loaded)))

/-- R84 to R87, R91: an accepted trml copies target and h of every selected channel-gain, writes its first trial value, 128
for a first trim and the base of the band plus 16 otherwise, and starts round 0; trmr reads the results of the named
channels. -/
def Obligations.TrimStartsAndReads : Prop :=
  ∀ (tag : Byte) (s : State), TakesRequests s →
    (∀ (mask : ChanMask) (g : Nat), s.acq.state = .standby → s.clk.state = .locked → inLong s = false → mask ≠ 0 →
      g ≤ 2 → (∀ c : Chan, mask.getLsbD c.val = true → s.front.recs[c].enable = true) →
      ∃ t lt, exec (.trml { tag := tag, payload := maskBytes mask ++ u8 g }) s = .next t ∧
        t = answer tag .ok (maskBytes mask ++ u8 g) { s with front := t.front, trim := t.trim } ∧
        t.front.recs = s.front.recs ∧ t.trim.gains = s.trim.gains ∧ t.trim.engine = .long lt ∧ lt.round = 0 ∧
        lt.arrivals = 0 ∧
        ∀ (c : Chan) (gn : Gain),
          if mask.getLsbD c.val = true ∧ (g = 2 ∨ g = gainCode gn) then
            let first := (s.trim.gains[c].get gn).first
            let base := min (s.front.dacs[c].get gn - 16) 224
            lt.searches[c].get gn = some
                { whole := first, value := if first then 0 else base, target := s.ped.chans[c].target.get gn,
                  hysteresis := s.ped.chans[c].hysteresis, meanV := 0, sum := 0 } ∧
              t.front.dacs[c].get gn = if first then 128 else base + 16
          else lt.searches[c].get gn = none ∧ t.front.dacs[c].get gn = s.front.dacs[c].get gn) ∧
    (∀ mask : ChanMask, exec (.trmr { tag := tag, payload := maskBytes mask }) s =
      .next (answer tag .ok
        (u8 s.trim.engine.code ++
          ((List.finRange 16).filter fun c => mask.getLsbD c.val).flatMap fun c =>
            [Gain.hg, Gain.lg].flatMap fun g =>
              u8 (s.front.dacs[c].get g) ++ u8 (s.ped.chans[c].gains.get g).sigma ++
                u16 (s.ped.chans[c].gains.get g).p ++ u8 (s.trim.gains[c].get g).status.code ++
                u8 (flagCode (s.trim.gains[c].get g).first)) s))

/-- R92, R94, R95, R97: tren in STANDBY enters manual trim mode for one channel-gain of an enabled channel; in it, trst writes
the selected DAC and starts a settle of 64, trms starts a measurement or is refused without lock, and trex leaves, loading P
from a valid last mean. That trst, trms and trex outside the mode are refused BADSTATE is the model's choice (assumption log
11), and so are the last mean of 0 that tren starts with, which R92 does not give (assumption log 34), the two bytes in which
the replies of tren and trex carry the channel-gain (assumption log 35), and the byte in which trex says whether P was loaded
(assumption log 37). -/
def Obligations.ManualModeCommands : Prop :=
  ∀ (tag : Byte) (s : State), PortIdle s →
    (∀ (c : Chan) (g : Gain), s.trim.engine = .idle → s.acq.state = .standby → s.front.recs[c].enable = true →
      exec (.tren { tag := tag, payload := u8 c.val ++ u8 (gainCode g) }) s =
        .next (answer tag .ok
          (u8 c.val ++ u8 (gainCode g) ++ u8 (s.front.dacs[c].get g) ++ u16 (s.ped.chans[c].gains.get g).p)
          { s with trim := { s.trim with
            engine := .manual
              { chan := c, gain := g, settle := 0, lastMean := 0, valid := false, measuring := none } } })) ∧
    (∀ m : ManualTrim, s.trim.engine = .manual m →
      (∀ v : Nat, v ≤ 255 →
        ∃ t, exec (.trst { tag := tag, payload := u8 v }) s = .next t ∧
          t = answer tag .ok (u8 v)
            { s with
              front := t.front,
              trim := { s.trim with engine := .manual { m with settle := 64, valid := false } } } ∧
          t.front.recs = s.front.recs ∧
          ∀ (c : Chan) (g : Gain),
            t.front.dacs[c].get g = if c = m.chan ∧ g = m.gain then v else s.front.dacs[c].get g) ∧
      (s.clk.state = .locked →
        exec (.trms { tag := tag, payload := [] }) s =
          .next { s with
            trim := { s.trim with engine := .manual { m with measuring := some { count := 0, sum := 0 } } },
            ctl := { s.ctl with executing := .trms tag } }) ∧
      (s.clk.state ≠ .locked →
        exec (.trms { tag := tag, payload := [] }) s = .next (answer tag .badState [] s)) ∧
      ∃ t, exec (.trex { tag := tag, payload := [] }) s = .next t ∧
        t = answer tag .ok
          (u8 m.chan.val ++ u8 (gainCode m.gain) ++ u8 (s.front.dacs[m.chan].get m.gain) ++
            u16 (t.ped.chans[m.chan].gains.get m.gain).p ++ u8 (flagCode m.valid))
          { s with ped := t.ped, trim := { s.trim with engine := .idle } } ∧
        ∀ (c : Chan) (g : Gain), t.ped.chans[c].settings = s.ped.chans[c].settings ∧
          t.ped.chans[c].gains.get g =
            if c = m.chan ∧ g = m.gain ∧ m.valid = true then { s.ped.chans[c].gains.get g with p := m.lastMean }
            else s.ped.chans[c].gains.get g) ∧
    (inManual s = false →
      ∀ c : Instr, (∃ v : Byte, c = .trst { tag := tag, payload := [v] }) ∨ c = .trms { tag := tag, payload := [] } ∨
          c = .trex { tag := tag, payload := [] } →
        exec c s = .next (answer tag .badState [] s))

/-- R99: an accepted filt write in STANDBY replaces both coefficient lists and the length of one set and no other; a set number
alone reads its set; outside STANDBY a write is refused BADSTATE. -/
def Obligations.FiltWritesAndReadsSet : Prop :=
  ∀ (tag : Byte) (s : State) (k : Fin 8), TakesRequests s →
    (∀ a b : List (BitVec 16), 3 ≤ a.length → a.length ≤ 16 → b.length = a.length →
      let p := u8 k.val ++ u8 a.length ++ coefBytes a ++ coefBytes b
      (s.acq.state = .standby →
        exec (.filt { tag := tag, payload := p }) s =
          .next (answer tag .ok (u8 k.val ++ u8 a.length)
            { s with filt := { s.filt with sets := s.filt.sets.set k.val { a := a, b := b } } })) ∧
      (s.acq.state ≠ .standby → exec (.filt { tag := tag, payload := p }) s = .next (answer tag .badState [] s))) ∧
    exec (.filt { tag := tag, payload := u8 k.val }) s =
      .next (answer tag .ok
        (u8 k.val ++ u8 s.filt.sets[k].length ++ coefBytes s.filt.sets[k].a ++ coefBytes s.filt.sets[k].b) s)

/-- R129, R130: with no commit pending, lclr empties the staged copy and lapp appends an entry, or is refused FULL on a copy
of 32 entries; with one pending, each edit of the staged copy is refused BUSY. That the reply of lapp carries the index too is
the model's choice (assumption log 12). -/
def Obligations.StagedAppends : Prop :=
  ∀ (tag : Byte) (s : State) (e : Entry) (i : Nat), TakesRequests s → e.Legal → i ≤ 255 →
    let n := s.list.staged.length
    let edited := fun l : List Entry => ({ s with list := { s.list with staged := l } } : State)
    (s.list.pending = false →
      exec (.lclr { tag := tag, payload := [] }) s = .next (answer tag .ok (u8 0) (edited [])) ∧
      exec (.lapp { tag := tag, payload := entryBytes e }) s =
        .next (if n < 32 then answer tag .ok (u8 (n + 1) ++ u8 n) (edited (s.list.staged ++ [e]))
          else answer tag .full [] s)) ∧
    (s.list.pending = true →
      ∀ c : Instr, c = .lclr { tag := tag, payload := [] } ∨ c = .lapp { tag := tag, payload := entryBytes e } ∨
          c = .lins { tag := tag, payload := u8 i ++ entryBytes e } ∨ c = .lrem { tag := tag, payload := u8 i } ∨
          c = .lrep { tag := tag, payload := u8 i ++ entryBytes e } →
        exec c s = .next (answer tag .busy [] s))

/-- R131, R132: with no commit pending, lins inserts an entry at an index up to the number of entries, lrem removes and lrep
replaces the entry at an index below it; an index beyond is refused BADARG, and only then lins on a copy of 32 entries FULL.
Each reply carries the count after the edit and the index. -/
def Obligations.StagedIndexEdits : Prop :=
  ∀ (tag : Byte) (s : State) (e : Entry) (i : Nat), TakesRequests s → e.Legal → i ≤ 255 → s.list.pending = false →
    let n := s.list.staged.length
    let edited := fun l : List Entry => ({ s with list := { s.list with staged := l } } : State)
    exec (.lins { tag := tag, payload := u8 i ++ entryBytes e }) s =
      .next (if n < i then answer tag .badArg [] s
        else if n < 32 then answer tag .ok (u8 (n + 1) ++ u8 i) (edited (s.list.staged.insertIdx i e))
        else answer tag .full [] s) ∧
    exec (.lrem { tag := tag, payload := u8 i }) s =
      .next (if i < n then answer tag .ok (u8 (n - 1) ++ u8 i) (edited (s.list.staged.eraseIdx i))
        else answer tag .badArg [] s) ∧
    exec (.lrep { tag := tag, payload := u8 i ++ entryBytes e }) s =
      .next (if i < n then answer tag .ok (u8 n ++ u8 i) (edited (s.list.staged.set i e))
        else answer tag .badArg [] s)

/-- R133 to R135, R137: lcom in STANDBY applies the commit at once, staged copied to active and the generation advanced; in
any other state it sets the pending flag; the reply carries generation, pending flag and whether the commit was applied, in a
byte of 1 or 0 by the model's choice (assumption log 37). lrds reads up to 16 entries of either copy, and is refused BADARG
beyond the copy. -/
def Obligations.CommitAndListReading : Prop :=
  ∀ (tag : Byte) (s : State), TakesRequests s →
    (s.acq.state = .standby →
      exec (.lcom { tag := tag, payload := [] }) s =
        .next (answer tag .ok (u8 (s.list.generation + 1).toNat ++ u8 0 ++ u8 1)
          { s with list := { s.list with
            active := s.list.staged, generation := s.list.generation + 1, pending := false, swap := true } })) ∧
    (s.acq.state ≠ .standby →
      exec (.lcom { tag := tag, payload := [] }) s =
        .next (answer tag .ok (u8 s.list.generation.toNat ++ u8 1 ++ u8 0)
          { s with list := { s.list with pending := true } })) ∧
    (∀ p : List Byte, p ≠ [] → exec (.lcom { tag := tag, payload := p }) s = .next (answer tag .badLen [] s)) ∧
    (∀ (act : Bool) (first count : Nat), first ≤ 32 → count ≤ 16 →
      let copy := if act then s.list.active else s.list.staged
      exec (.lrds { tag := tag, payload := u8 (flagCode act) ++ u8 first ++ u8 count }) s =
        .next (if first + count ≤ copy.length then
            answer tag .ok
              (u8 (flagCode act) ++ u8 copy.length ++ u8 s.list.generation.toNat ++ u8 (flagCode s.list.pending) ++
                u8 first ++ u8 count ++ ((copy.drop first).take count).flatMap entryBytes) s
          else answer tag .badArg [] s))

/-- R164 to R167: injs in DISARMED takes six new settings and is refused BUSY otherwise; inja arms a DISARMED injector with the
clock LOCKED and is refused BADSTATE without; injd disarms it and tells the pulses the train had fired; injf in ARMED starts
a train whose first pulse is due D crossings after the next one, and is refused otherwise. -/
def Obligations.InjectorCommands : Prop :=
  ∀ (tag : Byte) (s : State), PortIdle s →
    (inManual s = true →
      exec (.inja { tag := tag, payload := [] }) s = .next (answer tag .badState [] s) ∧
        exec (.injd { tag := tag, payload := [] }) s = .next (answer tag .badState [] s)) ∧
    (inManual s = false →
      (∀ t : TrainSettings, t.Legal →
        exec (.injs { tag := tag, payload := trainBytes t }) s =
          .next (if s.inj.state = .disarmed then
              answer tag .ok (trainBytes t)
                { s with inj := { s.inj with
                  mask := t.mask, amplitude := t.amplitude, delay := t.delay, count := t.count, spacing := t.spacing,
                  mode := t.mode } }
            else answer tag .busy [] s)) ∧
      (∀ p : List Byte, p ≠ [] →
        exec (.inja { tag := tag, payload := p }) s = .next (answer tag .badLen [] s) ∧
          exec (.injd { tag := tag, payload := p }) s = .next (answer tag .badLen [] s)) ∧
      exec (.inja { tag := tag, payload := [] }) s =
        .next (if s.clk.state = .locked then
            answer tag .ok (u8 (match s.inj.state with
                | .disarmed => 1
                | .armed => 1
                | .delaying _ => 2
                | .firing _ _ => 3))
              { s with inj := { s.inj with state := if s.inj.state = .disarmed then .armed else s.inj.state } }
          else answer tag .badState [] s) ∧
      exec (.injd { tag := tag, payload := [] }) s =
        .next (answer tag .ok (u8 (match s.inj.state with
            | .firing _ fired => fired
            | .delaying _ => 0
            | .armed => 0
            | .disarmed => 0)) { s with inj := { s.inj with state := .disarmed } }) ∧
      exec (.injf { tag := tag, payload := [] }) s =
        .next (match s.inj.state with
          | .disarmed => answer tag .badState [] s
          | .armed =>
            answer tag .ok
              (u8 (s.inj.train + 1).toNat ++ u32 (s.timing.serial + 1 + BitVec.ofNat 32 s.inj.delay).toNat)
              { s with inj := { s.inj with
                train := s.inj.train + 1,
                state := .delaying (s.timing.serial + 1 + BitVec.ofNat 32 s.inj.delay) } }
          | .delaying _ => answer tag .busy [] s
          | .firing _ _ => answer tag .busy [] s))

/-- R175, R176, R179, R180: ints with the scan IDLE and the clock LOCKED takes four settings, sets the pass to 0 and settles
on the start channel; it is refused BUSY during a scan and BADSTATE without lock. intx stops a scan and tells its channel.
intr reads the named readings and turns NEW into READ in them alone. That intx on an IDLE scan answers an empty payload is the
model's choice (assumption log 21), and so is that ints and intx leave the measurement counter as it is (assumption log 36). -/
def Obligations.ScanCommands : Prop :=
  ∀ (tag : Byte) (s : State), TakesRequests s →
    (∀ t : ScanSettings, t.Legal →
      exec (.ints { tag := tag, payload := scanBytes t }) s =
        .next (if s.integ.scan ≠ .idle then answer tag .busy [] s
          else if s.clk.state ≠ .locked then answer tag .badState [] s
          else answer tag .ok (scanBytes t)
            { s with integ := { s.integ with
              startChan := t.startChan, endChan := t.endChan, mode := t.mode, gateLength := t.gateLength, pass := 0,
              scan := .settle t.startChan 64 } })) ∧
    exec (.intx { tag := tag, payload := [] }) s =
      .next (answer tag .ok (match s.integ.scan with
          | .idle => []
          | .settle c _ => u8 c.val
          | .gate c _ => u8 c.val) { s with integ := { s.integ with scan := .idle } }) ∧
    ∀ mask : ChanMask,
      exec (.intr { tag := tag, payload := maskBytes mask }) s =
        .next (answer tag .ok
          (u8 s.integ.scan.code ++ u8 s.integ.pass.toNat ++
            ((List.finRange 16).filter fun c => mask.getLsbD c.val).flatMap fun c =>
              u8 s.integ.readings[c].status.code ++ u24 s.integ.readings[c].count ++ u16 s.integ.readings[c].gate ++
                u8 s.integ.readings[c].pass.toNat ++ u8 (flagCode s.integ.readings[c].ovf) ++
                u8 (flagCode s.integ.readings[c].overwritten))
          { s with integ := { s.integ with
            readings := Vector.ofFn fun c =>
              if mask.getLsbD c.val = true ∧ s.integ.readings[c].status = .new then
                { s.integ.readings[c] with status := .read }
              else s.integ.readings[c] } })

/-- R183, R184, R186: an accepted cclr clears latch, count and first event of every named condition and nothing else of the
table, and hands over a clearing of class 3 if one results; its reply is then formed from the conditions latched, as
HeldRequestsWaitAndExecute says. R187: events of the same moment may come after the clear and before the reply, which then
shows what they latched; here one that latches a named condition leaves it with a count of 1 and its own event number. How
many such events come is free (assumption log 31). A mask with a bit above 24 is refused BADARG, any other length BADLEN. -/
def Obligations.CclrClearsNamed : Prop :=
  ∀ (tag : Byte) (s : State), TakesRequests s →
    (∀ m : BitVec 32, m.toNat < 2 ^ 25 →
      ∃ (t : State) (n : Nat),
        exec (.cclr { tag := tag, payload := u32 m.toNat }) s = .next t ∧
        { t with ctl := s.ctl } = changeConds (fun _ => t.cond) s ∧
        t.ctl = { s.ctl with executing := .cclr tag n } ∧
        (∀ i : Fin 25, t.cond.recs[i] =
          if m.getLsbD i.val then { s.cond.recs[i] with latch := false, count := 0, first := none }
          else s.cond.recs[i]) ∧
        t.cond.counters = s.cond.counters ∧
        ∀ (c : Cond) (ev : Option EventNum), m.getLsbD c.num.val = true →
          (occur c ev t).cond.recs[c.num] = { s.cond.recs[c.num] with latch := true, count := 1, first := ev }) ∧
    (∀ m : BitVec 32, 2 ^ 25 ≤ m.toNat →
      exec (.cclr { tag := tag, payload := u32 m.toNat }) s = .next (answer tag .badArg [] s)) ∧
    ∀ p : List Byte, p.length ≠ 4 → exec (.cclr { tag := tag, payload := p }) s = .next (answer tag .badLen [] s)

/-- R184, R185, R188, R190: cmap gives one condition a class, acting on the class summary at once, and changes no latch, count
or counter; cond reads one condition with the mask of latched ones (the field of an absent first event is open, assumption log
6; the layout of its reply is the model's reading, assumption log 23); cntr reads the counters and marks, and with option 1
clears them after the reading. -/
def Obligations.ConditionTableCommands : Prop :=
  ∀ (tag : Byte) (s : State), TakesRequests s →
    (∀ (n : Fin 25) (k : CondClass),
      ∃ t, exec (.cmap { tag := tag, payload := u8 n.val ++ u8 k.code }) s = .next t ∧
        { t with ctl := s.ctl } = changeConds (fun _ => t.cond) s ∧
        Replies tag .ok (u8 n.val ++ u8 k.code) s t ∧
        t.cond.recs[n] = { s.cond.recs[n] with cls := k } ∧
        (∀ i : Fin 25, i ≠ n → t.cond.recs[i] = s.cond.recs[i]) ∧ t.cond.counters = s.cond.counters) ∧
    (∀ n : Fin 25, ∃ (blank : EventNum) (latched : BitVec 32),
      exec (.cond { tag := tag, payload := u8 n.val }) s =
        .next { answer tag .ok
          (u8 n.val ++ u8 (flagCode s.cond.recs[n].latch) ++ u16 s.cond.recs[n].count ++ u8 s.cond.recs[n].cls.code ++
            u24 (s.cond.recs[n].first.getD blank).toNat ++ u8 (flagCode s.cond.recs[n].first.isSome) ++
            u32 latched.toNat) s with freeIndex := s.freeIndex + 25 } ∧
      latched.toNat < 2 ^ 25 ∧ ∀ i : Fin 25, latched.getLsbD i.val = s.cond.recs[i].latch) ∧
    (let reading :=
      [s.cond.counters.accSeen, s.cond.counters.recMade, s.cond.counters.accNoRec, s.cond.counters.noSnaps,
        s.cond.counters.ruleV, s.cond.counters.frags, s.cond.counters.words, s.cond.counters.blocks,
        s.cond.counters.suppressed, s.cond.counters.missed].flatMap (fun c => u32 c.toNat) ++
      u8 s.aq.recordMark ++ u8 s.aq.slotMark
    exec (.cntr { tag := tag, payload := [] }) s = .next (answer tag .ok reading s) ∧
      exec (.cntr { tag := tag, payload := [1] }) s =
        .next (answer tag .ok reading
          { s with
            cond := { s.cond with counters := Counters.zero },
            aq := { s.aq with recordMark := s.aq.records.length, slotMark := slotsInUse s } }))

/-- R197, R198: stat and idnt answer OK in every state, manual trim mode included, and change nothing but the replies: stat with
the status summary of 18 bytes, idnt with the family code, the revision and the seven capacities; any payload is refused
BADLEN. -/
def Obligations.StatAndIdntAnswer : Prop :=
  ∀ (tag : Byte) (s : State), PortIdle s →
    exec (.stat { tag := tag, payload := [] }) s =
      .next (answer tag .ok
        (u8 s.acq.state.code ++ u8 s.clk.state.code ++ u8 s.timing.link.code ++ u8 s.trim.engine.code ++
          u8 s.inj.state.code ++ u8 s.integ.scan.code ++ u16 s.pipe.fill ++ u8 s.aq.records.length ++
          u8 (slotsInUse s) ++ u8 s.aq.recordMark ++ u8 s.aq.slotMark ++ u16 s.tx.buffer.length ++ u8 s.tx.credits ++
          u8 (flagCode s.aq.throttle) ++ u8 (flagCode s.list.pending) ++ u8 s.list.generation.toNat) s) ∧
    exec (.idnt { tag := tag, payload := [] }) s =
      .next (answer tag .ok
        (u16 0x1624 ++ u8 1 ++ u16 16 ++ u16 512 ++ u16 32 ++ u16 16 ++ u16 32 ++ u16 8 ++ u16 4096) s) ∧
    ∀ p : List Byte, p ≠ [] →
      exec (.stat { tag := tag, payload := p }) s = .next (answer tag .badLen [] s) ∧
        exec (.idnt { tag := tag, payload := p }) s = .next (answer tag .badLen [] s)

end Statements
end

