-- ==== Sys2Proof/Laws/State.lean ====
section
/-!
SUPPORT. One lemma per field per named update of State: the update changes its own block and no other. Every lemma holds
by definition and is a simp lemma, so that no later proof unfolds an update.
-/

namespace Sys2Proof.Machine

variable (s : State)

section
variable (f : Acquisition → Acquisition)
@[simp] theorem State.mapAcq_acq : (s.mapAcq f).acq = f s.acq := rfl
@[simp] theorem State.mapAcq_front : (s.mapAcq f).front = s.front := rfl
@[simp] theorem State.mapAcq_pipe : (s.mapAcq f).pipe = s.pipe := rfl
@[simp] theorem State.mapAcq_timing : (s.mapAcq f).timing = s.timing := rfl
@[simp] theorem State.mapAcq_clk : (s.mapAcq f).clk = s.clk := rfl
@[simp] theorem State.mapAcq_aq : (s.mapAcq f).aq = s.aq := rfl
@[simp] theorem State.mapAcq_ped : (s.mapAcq f).ped = s.ped := rfl
@[simp] theorem State.mapAcq_trim : (s.mapAcq f).trim = s.trim := rfl
@[simp] theorem State.mapAcq_filt : (s.mapAcq f).filt = s.filt := rfl
@[simp] theorem State.mapAcq_list : (s.mapAcq f).list = s.list := rfl
@[simp] theorem State.mapAcq_builder : (s.mapAcq f).builder = s.builder := rfl
@[simp] theorem State.mapAcq_tx : (s.mapAcq f).tx = s.tx := rfl
@[simp] theorem State.mapAcq_inj : (s.mapAcq f).inj = s.inj := rfl
@[simp] theorem State.mapAcq_integ : (s.mapAcq f).integ = s.integ := rfl
@[simp] theorem State.mapAcq_cond : (s.mapAcq f).cond = s.cond := rfl
@[simp] theorem State.mapAcq_ctl : (s.mapAcq f).ctl = s.ctl := rfl
@[simp] theorem State.mapAcq_freeIndex : (s.mapAcq f).freeIndex = s.freeIndex := rfl
@[simp] theorem State.mapAcq_pending : (s.mapAcq f).pending = s.pending := rfl
end

section
variable (f : FrontEnd → FrontEnd)
@[simp] theorem State.mapFront_acq : (s.mapFront f).acq = s.acq := rfl
@[simp] theorem State.mapFront_front : (s.mapFront f).front = f s.front := rfl
@[simp] theorem State.mapFront_pipe : (s.mapFront f).pipe = s.pipe := rfl
@[simp] theorem State.mapFront_timing : (s.mapFront f).timing = s.timing := rfl
@[simp] theorem State.mapFront_clk : (s.mapFront f).clk = s.clk := rfl
@[simp] theorem State.mapFront_aq : (s.mapFront f).aq = s.aq := rfl
@[simp] theorem State.mapFront_ped : (s.mapFront f).ped = s.ped := rfl
@[simp] theorem State.mapFront_trim : (s.mapFront f).trim = s.trim := rfl
@[simp] theorem State.mapFront_filt : (s.mapFront f).filt = s.filt := rfl
@[simp] theorem State.mapFront_list : (s.mapFront f).list = s.list := rfl
@[simp] theorem State.mapFront_builder : (s.mapFront f).builder = s.builder := rfl
@[simp] theorem State.mapFront_tx : (s.mapFront f).tx = s.tx := rfl
@[simp] theorem State.mapFront_inj : (s.mapFront f).inj = s.inj := rfl
@[simp] theorem State.mapFront_integ : (s.mapFront f).integ = s.integ := rfl
@[simp] theorem State.mapFront_cond : (s.mapFront f).cond = s.cond := rfl
@[simp] theorem State.mapFront_ctl : (s.mapFront f).ctl = s.ctl := rfl
@[simp] theorem State.mapFront_freeIndex : (s.mapFront f).freeIndex = s.freeIndex := rfl
@[simp] theorem State.mapFront_pending : (s.mapFront f).pending = s.pending := rfl
end

section
variable (f : Pipeline → Pipeline)
@[simp] theorem State.mapPipe_acq : (s.mapPipe f).acq = s.acq := rfl
@[simp] theorem State.mapPipe_front : (s.mapPipe f).front = s.front := rfl
@[simp] theorem State.mapPipe_pipe : (s.mapPipe f).pipe = f s.pipe := rfl
@[simp] theorem State.mapPipe_timing : (s.mapPipe f).timing = s.timing := rfl
@[simp] theorem State.mapPipe_clk : (s.mapPipe f).clk = s.clk := rfl
@[simp] theorem State.mapPipe_aq : (s.mapPipe f).aq = s.aq := rfl
@[simp] theorem State.mapPipe_ped : (s.mapPipe f).ped = s.ped := rfl
@[simp] theorem State.mapPipe_trim : (s.mapPipe f).trim = s.trim := rfl
@[simp] theorem State.mapPipe_filt : (s.mapPipe f).filt = s.filt := rfl
@[simp] theorem State.mapPipe_list : (s.mapPipe f).list = s.list := rfl
@[simp] theorem State.mapPipe_builder : (s.mapPipe f).builder = s.builder := rfl
@[simp] theorem State.mapPipe_tx : (s.mapPipe f).tx = s.tx := rfl
@[simp] theorem State.mapPipe_inj : (s.mapPipe f).inj = s.inj := rfl
@[simp] theorem State.mapPipe_integ : (s.mapPipe f).integ = s.integ := rfl
@[simp] theorem State.mapPipe_cond : (s.mapPipe f).cond = s.cond := rfl
@[simp] theorem State.mapPipe_ctl : (s.mapPipe f).ctl = s.ctl := rfl
@[simp] theorem State.mapPipe_freeIndex : (s.mapPipe f).freeIndex = s.freeIndex := rfl
@[simp] theorem State.mapPipe_pending : (s.mapPipe f).pending = s.pending := rfl
end

section
variable (f : Timing → Timing)
@[simp] theorem State.mapTiming_acq : (s.mapTiming f).acq = s.acq := rfl
@[simp] theorem State.mapTiming_front : (s.mapTiming f).front = s.front := rfl
@[simp] theorem State.mapTiming_pipe : (s.mapTiming f).pipe = s.pipe := rfl
@[simp] theorem State.mapTiming_timing : (s.mapTiming f).timing = f s.timing := rfl
@[simp] theorem State.mapTiming_clk : (s.mapTiming f).clk = s.clk := rfl
@[simp] theorem State.mapTiming_aq : (s.mapTiming f).aq = s.aq := rfl
@[simp] theorem State.mapTiming_ped : (s.mapTiming f).ped = s.ped := rfl
@[simp] theorem State.mapTiming_trim : (s.mapTiming f).trim = s.trim := rfl
@[simp] theorem State.mapTiming_filt : (s.mapTiming f).filt = s.filt := rfl
@[simp] theorem State.mapTiming_list : (s.mapTiming f).list = s.list := rfl
@[simp] theorem State.mapTiming_builder : (s.mapTiming f).builder = s.builder := rfl
@[simp] theorem State.mapTiming_tx : (s.mapTiming f).tx = s.tx := rfl
@[simp] theorem State.mapTiming_inj : (s.mapTiming f).inj = s.inj := rfl
@[simp] theorem State.mapTiming_integ : (s.mapTiming f).integ = s.integ := rfl
@[simp] theorem State.mapTiming_cond : (s.mapTiming f).cond = s.cond := rfl
@[simp] theorem State.mapTiming_ctl : (s.mapTiming f).ctl = s.ctl := rfl
@[simp] theorem State.mapTiming_freeIndex : (s.mapTiming f).freeIndex = s.freeIndex := rfl
@[simp] theorem State.mapTiming_pending : (s.mapTiming f).pending = s.pending := rfl
end

section
variable (f : Clock → Clock)
@[simp] theorem State.mapClk_acq : (s.mapClk f).acq = s.acq := rfl
@[simp] theorem State.mapClk_front : (s.mapClk f).front = s.front := rfl
@[simp] theorem State.mapClk_pipe : (s.mapClk f).pipe = s.pipe := rfl
@[simp] theorem State.mapClk_timing : (s.mapClk f).timing = s.timing := rfl
@[simp] theorem State.mapClk_clk : (s.mapClk f).clk = f s.clk := rfl
@[simp] theorem State.mapClk_aq : (s.mapClk f).aq = s.aq := rfl
@[simp] theorem State.mapClk_ped : (s.mapClk f).ped = s.ped := rfl
@[simp] theorem State.mapClk_trim : (s.mapClk f).trim = s.trim := rfl
@[simp] theorem State.mapClk_filt : (s.mapClk f).filt = s.filt := rfl
@[simp] theorem State.mapClk_list : (s.mapClk f).list = s.list := rfl
@[simp] theorem State.mapClk_builder : (s.mapClk f).builder = s.builder := rfl
@[simp] theorem State.mapClk_tx : (s.mapClk f).tx = s.tx := rfl
@[simp] theorem State.mapClk_inj : (s.mapClk f).inj = s.inj := rfl
@[simp] theorem State.mapClk_integ : (s.mapClk f).integ = s.integ := rfl
@[simp] theorem State.mapClk_cond : (s.mapClk f).cond = s.cond := rfl
@[simp] theorem State.mapClk_ctl : (s.mapClk f).ctl = s.ctl := rfl
@[simp] theorem State.mapClk_freeIndex : (s.mapClk f).freeIndex = s.freeIndex := rfl
@[simp] theorem State.mapClk_pending : (s.mapClk f).pending = s.pending := rfl
end

section
variable (f : AcceptQueue → AcceptQueue)
@[simp] theorem State.mapAq_acq : (s.mapAq f).acq = s.acq := rfl
@[simp] theorem State.mapAq_front : (s.mapAq f).front = s.front := rfl
@[simp] theorem State.mapAq_pipe : (s.mapAq f).pipe = s.pipe := rfl
@[simp] theorem State.mapAq_timing : (s.mapAq f).timing = s.timing := rfl
@[simp] theorem State.mapAq_clk : (s.mapAq f).clk = s.clk := rfl
@[simp] theorem State.mapAq_aq : (s.mapAq f).aq = f s.aq := rfl
@[simp] theorem State.mapAq_ped : (s.mapAq f).ped = s.ped := rfl
@[simp] theorem State.mapAq_trim : (s.mapAq f).trim = s.trim := rfl
@[simp] theorem State.mapAq_filt : (s.mapAq f).filt = s.filt := rfl
@[simp] theorem State.mapAq_list : (s.mapAq f).list = s.list := rfl
@[simp] theorem State.mapAq_builder : (s.mapAq f).builder = s.builder := rfl
@[simp] theorem State.mapAq_tx : (s.mapAq f).tx = s.tx := rfl
@[simp] theorem State.mapAq_inj : (s.mapAq f).inj = s.inj := rfl
@[simp] theorem State.mapAq_integ : (s.mapAq f).integ = s.integ := rfl
@[simp] theorem State.mapAq_cond : (s.mapAq f).cond = s.cond := rfl
@[simp] theorem State.mapAq_ctl : (s.mapAq f).ctl = s.ctl := rfl
@[simp] theorem State.mapAq_freeIndex : (s.mapAq f).freeIndex = s.freeIndex := rfl
@[simp] theorem State.mapAq_pending : (s.mapAq f).pending = s.pending := rfl
end

section
variable (f : Tracker → Tracker)
@[simp] theorem State.mapPed_acq : (s.mapPed f).acq = s.acq := rfl
@[simp] theorem State.mapPed_front : (s.mapPed f).front = s.front := rfl
@[simp] theorem State.mapPed_pipe : (s.mapPed f).pipe = s.pipe := rfl
@[simp] theorem State.mapPed_timing : (s.mapPed f).timing = s.timing := rfl
@[simp] theorem State.mapPed_clk : (s.mapPed f).clk = s.clk := rfl
@[simp] theorem State.mapPed_aq : (s.mapPed f).aq = s.aq := rfl
@[simp] theorem State.mapPed_ped : (s.mapPed f).ped = f s.ped := rfl
@[simp] theorem State.mapPed_trim : (s.mapPed f).trim = s.trim := rfl
@[simp] theorem State.mapPed_filt : (s.mapPed f).filt = s.filt := rfl
@[simp] theorem State.mapPed_list : (s.mapPed f).list = s.list := rfl
@[simp] theorem State.mapPed_builder : (s.mapPed f).builder = s.builder := rfl
@[simp] theorem State.mapPed_tx : (s.mapPed f).tx = s.tx := rfl
@[simp] theorem State.mapPed_inj : (s.mapPed f).inj = s.inj := rfl
@[simp] theorem State.mapPed_integ : (s.mapPed f).integ = s.integ := rfl
@[simp] theorem State.mapPed_cond : (s.mapPed f).cond = s.cond := rfl
@[simp] theorem State.mapPed_ctl : (s.mapPed f).ctl = s.ctl := rfl
@[simp] theorem State.mapPed_freeIndex : (s.mapPed f).freeIndex = s.freeIndex := rfl
@[simp] theorem State.mapPed_pending : (s.mapPed f).pending = s.pending := rfl
end

section
variable (f : Trim → Trim)
@[simp] theorem State.mapTrim_acq : (s.mapTrim f).acq = s.acq := rfl
@[simp] theorem State.mapTrim_front : (s.mapTrim f).front = s.front := rfl
@[simp] theorem State.mapTrim_pipe : (s.mapTrim f).pipe = s.pipe := rfl
@[simp] theorem State.mapTrim_timing : (s.mapTrim f).timing = s.timing := rfl
@[simp] theorem State.mapTrim_clk : (s.mapTrim f).clk = s.clk := rfl
@[simp] theorem State.mapTrim_aq : (s.mapTrim f).aq = s.aq := rfl
@[simp] theorem State.mapTrim_ped : (s.mapTrim f).ped = s.ped := rfl
@[simp] theorem State.mapTrim_trim : (s.mapTrim f).trim = f s.trim := rfl
@[simp] theorem State.mapTrim_filt : (s.mapTrim f).filt = s.filt := rfl
@[simp] theorem State.mapTrim_list : (s.mapTrim f).list = s.list := rfl
@[simp] theorem State.mapTrim_builder : (s.mapTrim f).builder = s.builder := rfl
@[simp] theorem State.mapTrim_tx : (s.mapTrim f).tx = s.tx := rfl
@[simp] theorem State.mapTrim_inj : (s.mapTrim f).inj = s.inj := rfl
@[simp] theorem State.mapTrim_integ : (s.mapTrim f).integ = s.integ := rfl
@[simp] theorem State.mapTrim_cond : (s.mapTrim f).cond = s.cond := rfl
@[simp] theorem State.mapTrim_ctl : (s.mapTrim f).ctl = s.ctl := rfl
@[simp] theorem State.mapTrim_freeIndex : (s.mapTrim f).freeIndex = s.freeIndex := rfl
@[simp] theorem State.mapTrim_pending : (s.mapTrim f).pending = s.pending := rfl
end

section
variable (f : FilterTable → FilterTable)
@[simp] theorem State.mapFilt_acq : (s.mapFilt f).acq = s.acq := rfl
@[simp] theorem State.mapFilt_front : (s.mapFilt f).front = s.front := rfl
@[simp] theorem State.mapFilt_pipe : (s.mapFilt f).pipe = s.pipe := rfl
@[simp] theorem State.mapFilt_timing : (s.mapFilt f).timing = s.timing := rfl
@[simp] theorem State.mapFilt_clk : (s.mapFilt f).clk = s.clk := rfl
@[simp] theorem State.mapFilt_aq : (s.mapFilt f).aq = s.aq := rfl
@[simp] theorem State.mapFilt_ped : (s.mapFilt f).ped = s.ped := rfl
@[simp] theorem State.mapFilt_trim : (s.mapFilt f).trim = s.trim := rfl
@[simp] theorem State.mapFilt_filt : (s.mapFilt f).filt = f s.filt := rfl
@[simp] theorem State.mapFilt_list : (s.mapFilt f).list = s.list := rfl
@[simp] theorem State.mapFilt_builder : (s.mapFilt f).builder = s.builder := rfl
@[simp] theorem State.mapFilt_tx : (s.mapFilt f).tx = s.tx := rfl
@[simp] theorem State.mapFilt_inj : (s.mapFilt f).inj = s.inj := rfl
@[simp] theorem State.mapFilt_integ : (s.mapFilt f).integ = s.integ := rfl
@[simp] theorem State.mapFilt_cond : (s.mapFilt f).cond = s.cond := rfl
@[simp] theorem State.mapFilt_ctl : (s.mapFilt f).ctl = s.ctl := rfl
@[simp] theorem State.mapFilt_freeIndex : (s.mapFilt f).freeIndex = s.freeIndex := rfl
@[simp] theorem State.mapFilt_pending : (s.mapFilt f).pending = s.pending := rfl
end

section
variable (f : ReadoutList → ReadoutList)
@[simp] theorem State.mapList_acq : (s.mapList f).acq = s.acq := rfl
@[simp] theorem State.mapList_front : (s.mapList f).front = s.front := rfl
@[simp] theorem State.mapList_pipe : (s.mapList f).pipe = s.pipe := rfl
@[simp] theorem State.mapList_timing : (s.mapList f).timing = s.timing := rfl
@[simp] theorem State.mapList_clk : (s.mapList f).clk = s.clk := rfl
@[simp] theorem State.mapList_aq : (s.mapList f).aq = s.aq := rfl
@[simp] theorem State.mapList_ped : (s.mapList f).ped = s.ped := rfl
@[simp] theorem State.mapList_trim : (s.mapList f).trim = s.trim := rfl
@[simp] theorem State.mapList_filt : (s.mapList f).filt = s.filt := rfl
@[simp] theorem State.mapList_list : (s.mapList f).list = f s.list := rfl
@[simp] theorem State.mapList_builder : (s.mapList f).builder = s.builder := rfl
@[simp] theorem State.mapList_tx : (s.mapList f).tx = s.tx := rfl
@[simp] theorem State.mapList_inj : (s.mapList f).inj = s.inj := rfl
@[simp] theorem State.mapList_integ : (s.mapList f).integ = s.integ := rfl
@[simp] theorem State.mapList_cond : (s.mapList f).cond = s.cond := rfl
@[simp] theorem State.mapList_ctl : (s.mapList f).ctl = s.ctl := rfl
@[simp] theorem State.mapList_freeIndex : (s.mapList f).freeIndex = s.freeIndex := rfl
@[simp] theorem State.mapList_pending : (s.mapList f).pending = s.pending := rfl
end

section
variable (f : Builder → Builder)
@[simp] theorem State.mapBuilder_acq : (s.mapBuilder f).acq = s.acq := rfl
@[simp] theorem State.mapBuilder_front : (s.mapBuilder f).front = s.front := rfl
@[simp] theorem State.mapBuilder_pipe : (s.mapBuilder f).pipe = s.pipe := rfl
@[simp] theorem State.mapBuilder_timing : (s.mapBuilder f).timing = s.timing := rfl
@[simp] theorem State.mapBuilder_clk : (s.mapBuilder f).clk = s.clk := rfl
@[simp] theorem State.mapBuilder_aq : (s.mapBuilder f).aq = s.aq := rfl
@[simp] theorem State.mapBuilder_ped : (s.mapBuilder f).ped = s.ped := rfl
@[simp] theorem State.mapBuilder_trim : (s.mapBuilder f).trim = s.trim := rfl
@[simp] theorem State.mapBuilder_filt : (s.mapBuilder f).filt = s.filt := rfl
@[simp] theorem State.mapBuilder_list : (s.mapBuilder f).list = s.list := rfl
@[simp] theorem State.mapBuilder_builder : (s.mapBuilder f).builder = f s.builder := rfl
@[simp] theorem State.mapBuilder_tx : (s.mapBuilder f).tx = s.tx := rfl
@[simp] theorem State.mapBuilder_inj : (s.mapBuilder f).inj = s.inj := rfl
@[simp] theorem State.mapBuilder_integ : (s.mapBuilder f).integ = s.integ := rfl
@[simp] theorem State.mapBuilder_cond : (s.mapBuilder f).cond = s.cond := rfl
@[simp] theorem State.mapBuilder_ctl : (s.mapBuilder f).ctl = s.ctl := rfl
@[simp] theorem State.mapBuilder_freeIndex : (s.mapBuilder f).freeIndex = s.freeIndex := rfl
@[simp] theorem State.mapBuilder_pending : (s.mapBuilder f).pending = s.pending := rfl
end

section
variable (f : Transmitter → Transmitter)
@[simp] theorem State.mapTx_acq : (s.mapTx f).acq = s.acq := rfl
@[simp] theorem State.mapTx_front : (s.mapTx f).front = s.front := rfl
@[simp] theorem State.mapTx_pipe : (s.mapTx f).pipe = s.pipe := rfl
@[simp] theorem State.mapTx_timing : (s.mapTx f).timing = s.timing := rfl
@[simp] theorem State.mapTx_clk : (s.mapTx f).clk = s.clk := rfl
@[simp] theorem State.mapTx_aq : (s.mapTx f).aq = s.aq := rfl
@[simp] theorem State.mapTx_ped : (s.mapTx f).ped = s.ped := rfl
@[simp] theorem State.mapTx_trim : (s.mapTx f).trim = s.trim := rfl
@[simp] theorem State.mapTx_filt : (s.mapTx f).filt = s.filt := rfl
@[simp] theorem State.mapTx_list : (s.mapTx f).list = s.list := rfl
@[simp] theorem State.mapTx_builder : (s.mapTx f).builder = s.builder := rfl
@[simp] theorem State.mapTx_tx : (s.mapTx f).tx = f s.tx := rfl
@[simp] theorem State.mapTx_inj : (s.mapTx f).inj = s.inj := rfl
@[simp] theorem State.mapTx_integ : (s.mapTx f).integ = s.integ := rfl
@[simp] theorem State.mapTx_cond : (s.mapTx f).cond = s.cond := rfl
@[simp] theorem State.mapTx_ctl : (s.mapTx f).ctl = s.ctl := rfl
@[simp] theorem State.mapTx_freeIndex : (s.mapTx f).freeIndex = s.freeIndex := rfl
@[simp] theorem State.mapTx_pending : (s.mapTx f).pending = s.pending := rfl
end

section
variable (f : Injector → Injector)
@[simp] theorem State.mapInj_acq : (s.mapInj f).acq = s.acq := rfl
@[simp] theorem State.mapInj_front : (s.mapInj f).front = s.front := rfl
@[simp] theorem State.mapInj_pipe : (s.mapInj f).pipe = s.pipe := rfl
@[simp] theorem State.mapInj_timing : (s.mapInj f).timing = s.timing := rfl
@[simp] theorem State.mapInj_clk : (s.mapInj f).clk = s.clk := rfl
@[simp] theorem State.mapInj_aq : (s.mapInj f).aq = s.aq := rfl
@[simp] theorem State.mapInj_ped : (s.mapInj f).ped = s.ped := rfl
@[simp] theorem State.mapInj_trim : (s.mapInj f).trim = s.trim := rfl
@[simp] theorem State.mapInj_filt : (s.mapInj f).filt = s.filt := rfl
@[simp] theorem State.mapInj_list : (s.mapInj f).list = s.list := rfl
@[simp] theorem State.mapInj_builder : (s.mapInj f).builder = s.builder := rfl
@[simp] theorem State.mapInj_tx : (s.mapInj f).tx = s.tx := rfl
@[simp] theorem State.mapInj_inj : (s.mapInj f).inj = f s.inj := rfl
@[simp] theorem State.mapInj_integ : (s.mapInj f).integ = s.integ := rfl
@[simp] theorem State.mapInj_cond : (s.mapInj f).cond = s.cond := rfl
@[simp] theorem State.mapInj_ctl : (s.mapInj f).ctl = s.ctl := rfl
@[simp] theorem State.mapInj_freeIndex : (s.mapInj f).freeIndex = s.freeIndex := rfl
@[simp] theorem State.mapInj_pending : (s.mapInj f).pending = s.pending := rfl
end

section
variable (f : Integrator → Integrator)
@[simp] theorem State.mapInteg_acq : (s.mapInteg f).acq = s.acq := rfl
@[simp] theorem State.mapInteg_front : (s.mapInteg f).front = s.front := rfl
@[simp] theorem State.mapInteg_pipe : (s.mapInteg f).pipe = s.pipe := rfl
@[simp] theorem State.mapInteg_timing : (s.mapInteg f).timing = s.timing := rfl
@[simp] theorem State.mapInteg_clk : (s.mapInteg f).clk = s.clk := rfl
@[simp] theorem State.mapInteg_aq : (s.mapInteg f).aq = s.aq := rfl
@[simp] theorem State.mapInteg_ped : (s.mapInteg f).ped = s.ped := rfl
@[simp] theorem State.mapInteg_trim : (s.mapInteg f).trim = s.trim := rfl
@[simp] theorem State.mapInteg_filt : (s.mapInteg f).filt = s.filt := rfl
@[simp] theorem State.mapInteg_list : (s.mapInteg f).list = s.list := rfl
@[simp] theorem State.mapInteg_builder : (s.mapInteg f).builder = s.builder := rfl
@[simp] theorem State.mapInteg_tx : (s.mapInteg f).tx = s.tx := rfl
@[simp] theorem State.mapInteg_inj : (s.mapInteg f).inj = s.inj := rfl
@[simp] theorem State.mapInteg_integ : (s.mapInteg f).integ = f s.integ := rfl
@[simp] theorem State.mapInteg_cond : (s.mapInteg f).cond = s.cond := rfl
@[simp] theorem State.mapInteg_ctl : (s.mapInteg f).ctl = s.ctl := rfl
@[simp] theorem State.mapInteg_freeIndex : (s.mapInteg f).freeIndex = s.freeIndex := rfl
@[simp] theorem State.mapInteg_pending : (s.mapInteg f).pending = s.pending := rfl
end

section
variable (f : CondTable → CondTable)
@[simp] theorem State.mapCond_acq : (s.mapCond f).acq = s.acq := rfl
@[simp] theorem State.mapCond_front : (s.mapCond f).front = s.front := rfl
@[simp] theorem State.mapCond_pipe : (s.mapCond f).pipe = s.pipe := rfl
@[simp] theorem State.mapCond_timing : (s.mapCond f).timing = s.timing := rfl
@[simp] theorem State.mapCond_clk : (s.mapCond f).clk = s.clk := rfl
@[simp] theorem State.mapCond_aq : (s.mapCond f).aq = s.aq := rfl
@[simp] theorem State.mapCond_ped : (s.mapCond f).ped = s.ped := rfl
@[simp] theorem State.mapCond_trim : (s.mapCond f).trim = s.trim := rfl
@[simp] theorem State.mapCond_filt : (s.mapCond f).filt = s.filt := rfl
@[simp] theorem State.mapCond_list : (s.mapCond f).list = s.list := rfl
@[simp] theorem State.mapCond_builder : (s.mapCond f).builder = s.builder := rfl
@[simp] theorem State.mapCond_tx : (s.mapCond f).tx = s.tx := rfl
@[simp] theorem State.mapCond_inj : (s.mapCond f).inj = s.inj := rfl
@[simp] theorem State.mapCond_integ : (s.mapCond f).integ = s.integ := rfl
@[simp] theorem State.mapCond_cond : (s.mapCond f).cond = f s.cond := rfl
@[simp] theorem State.mapCond_ctl : (s.mapCond f).ctl = s.ctl := rfl
@[simp] theorem State.mapCond_freeIndex : (s.mapCond f).freeIndex = s.freeIndex := rfl
@[simp] theorem State.mapCond_pending : (s.mapCond f).pending = s.pending := rfl
end

section
variable (f : Control → Control)
@[simp] theorem State.mapCtl_acq : (s.mapCtl f).acq = s.acq := rfl
@[simp] theorem State.mapCtl_front : (s.mapCtl f).front = s.front := rfl
@[simp] theorem State.mapCtl_pipe : (s.mapCtl f).pipe = s.pipe := rfl
@[simp] theorem State.mapCtl_timing : (s.mapCtl f).timing = s.timing := rfl
@[simp] theorem State.mapCtl_clk : (s.mapCtl f).clk = s.clk := rfl
@[simp] theorem State.mapCtl_aq : (s.mapCtl f).aq = s.aq := rfl
@[simp] theorem State.mapCtl_ped : (s.mapCtl f).ped = s.ped := rfl
@[simp] theorem State.mapCtl_trim : (s.mapCtl f).trim = s.trim := rfl
@[simp] theorem State.mapCtl_filt : (s.mapCtl f).filt = s.filt := rfl
@[simp] theorem State.mapCtl_list : (s.mapCtl f).list = s.list := rfl
@[simp] theorem State.mapCtl_builder : (s.mapCtl f).builder = s.builder := rfl
@[simp] theorem State.mapCtl_tx : (s.mapCtl f).tx = s.tx := rfl
@[simp] theorem State.mapCtl_inj : (s.mapCtl f).inj = s.inj := rfl
@[simp] theorem State.mapCtl_integ : (s.mapCtl f).integ = s.integ := rfl
@[simp] theorem State.mapCtl_cond : (s.mapCtl f).cond = s.cond := rfl
@[simp] theorem State.mapCtl_ctl : (s.mapCtl f).ctl = f s.ctl := rfl
@[simp] theorem State.mapCtl_freeIndex : (s.mapCtl f).freeIndex = s.freeIndex := rfl
@[simp] theorem State.mapCtl_pending : (s.mapCtl f).pending = s.pending := rfl
end

section
variable (f : Nat → Nat)
@[simp] theorem State.mapFreeIndex_acq : (s.mapFreeIndex f).acq = s.acq := rfl
@[simp] theorem State.mapFreeIndex_front : (s.mapFreeIndex f).front = s.front := rfl
@[simp] theorem State.mapFreeIndex_pipe : (s.mapFreeIndex f).pipe = s.pipe := rfl
@[simp] theorem State.mapFreeIndex_timing : (s.mapFreeIndex f).timing = s.timing := rfl
@[simp] theorem State.mapFreeIndex_clk : (s.mapFreeIndex f).clk = s.clk := rfl
@[simp] theorem State.mapFreeIndex_aq : (s.mapFreeIndex f).aq = s.aq := rfl
@[simp] theorem State.mapFreeIndex_ped : (s.mapFreeIndex f).ped = s.ped := rfl
@[simp] theorem State.mapFreeIndex_trim : (s.mapFreeIndex f).trim = s.trim := rfl
@[simp] theorem State.mapFreeIndex_filt : (s.mapFreeIndex f).filt = s.filt := rfl
@[simp] theorem State.mapFreeIndex_list : (s.mapFreeIndex f).list = s.list := rfl
@[simp] theorem State.mapFreeIndex_builder : (s.mapFreeIndex f).builder = s.builder := rfl
@[simp] theorem State.mapFreeIndex_tx : (s.mapFreeIndex f).tx = s.tx := rfl
@[simp] theorem State.mapFreeIndex_inj : (s.mapFreeIndex f).inj = s.inj := rfl
@[simp] theorem State.mapFreeIndex_integ : (s.mapFreeIndex f).integ = s.integ := rfl
@[simp] theorem State.mapFreeIndex_cond : (s.mapFreeIndex f).cond = s.cond := rfl
@[simp] theorem State.mapFreeIndex_ctl : (s.mapFreeIndex f).ctl = s.ctl := rfl
@[simp] theorem State.mapFreeIndex_freeIndex : (s.mapFreeIndex f).freeIndex = f s.freeIndex := rfl
@[simp] theorem State.mapFreeIndex_pending : (s.mapFreeIndex f).pending = s.pending := rfl
end

section
variable (f : List Instr → List Instr)
@[simp] theorem State.mapPending_acq : (s.mapPending f).acq = s.acq := rfl
@[simp] theorem State.mapPending_front : (s.mapPending f).front = s.front := rfl
@[simp] theorem State.mapPending_pipe : (s.mapPending f).pipe = s.pipe := rfl
@[simp] theorem State.mapPending_timing : (s.mapPending f).timing = s.timing := rfl
@[simp] theorem State.mapPending_clk : (s.mapPending f).clk = s.clk := rfl
@[simp] theorem State.mapPending_aq : (s.mapPending f).aq = s.aq := rfl
@[simp] theorem State.mapPending_ped : (s.mapPending f).ped = s.ped := rfl
@[simp] theorem State.mapPending_trim : (s.mapPending f).trim = s.trim := rfl
@[simp] theorem State.mapPending_filt : (s.mapPending f).filt = s.filt := rfl
@[simp] theorem State.mapPending_list : (s.mapPending f).list = s.list := rfl
@[simp] theorem State.mapPending_builder : (s.mapPending f).builder = s.builder := rfl
@[simp] theorem State.mapPending_tx : (s.mapPending f).tx = s.tx := rfl
@[simp] theorem State.mapPending_inj : (s.mapPending f).inj = s.inj := rfl
@[simp] theorem State.mapPending_integ : (s.mapPending f).integ = s.integ := rfl
@[simp] theorem State.mapPending_cond : (s.mapPending f).cond = s.cond := rfl
@[simp] theorem State.mapPending_ctl : (s.mapPending f).ctl = s.ctl := rfl
@[simp] theorem State.mapPending_freeIndex : (s.mapPending f).freeIndex = s.freeIndex := rfl
@[simp] theorem State.mapPending_pending : (s.mapPending f).pending = f s.pending := rfl
end

end Sys2Proof.Machine
end

