-- ==== Sys2Proof/Laws/Conditions.lean ====
section
/-!
SUPPORT. What an occurrence at the Condition Table, a change of the throttle and a tally can do to the state: `OnlyConditions`
names the four places they reach, and each shared operation has one lemma that says it reaches no other.
-/

namespace Sys2Proof.Machine

/-- t differs from s at most in the Condition Table, the acquisition state, the throttle and the waiting throttle frame. -/
def OnlyConditions (s t : State) : Prop :=
  ∃ (cond : CondTable) (st : AcqState) (th : Bool) (wf : Option ThrottleFrame),
    t = { s with cond := cond, acq := { s.acq with state := st }, aq := { s.aq with throttle := th },
                 tx := { s.tx with waitingFrame := wf } }

theorem OnlyConditions.refl (s : State) : OnlyConditions s s :=
  ⟨s.cond, s.acq.state, s.aq.throttle, s.tx.waitingFrame, rfl⟩

theorem OnlyConditions.trans {a b c : State} (h : OnlyConditions a b) (k : OnlyConditions b c) : OnlyConditions a c := by
  obtain ⟨_, _, _, _, rfl⟩ := h
  obtain ⟨x, y, z, w, rfl⟩ := k
  exact ⟨x, y, z, w, rfl⟩

/-- Every other field stays. -/
theorem OnlyConditions.frame {s t : State} (h : OnlyConditions s t) :
    t.front = s.front ∧ t.pipe = s.pipe ∧ t.timing = s.timing ∧ t.clk = s.clk ∧ t.ped = s.ped ∧ t.trim = s.trim ∧
      t.filt = s.filt ∧ t.list = s.list ∧ t.builder = s.builder ∧ t.inj = s.inj ∧ t.integ = s.integ ∧ t.ctl = s.ctl ∧
      t.freeIndex = s.freeIndex ∧ t.pending = s.pending ∧ t.acq = { s.acq with state := t.acq.state } ∧
      t.aq = { s.aq with throttle := t.aq.throttle } ∧ t.tx = { s.tx with waitingFrame := t.tx.waitingFrame } := by
  obtain ⟨_, _, _, _, rfl⟩ := h
  simp

theorem OnlyConditions.pipe {s t : State} (h : OnlyConditions s t) : t.pipe = s.pipe := h.frame.2.1
theorem OnlyConditions.front {s t : State} (h : OnlyConditions s t) : t.front = s.front := h.frame.1
theorem OnlyConditions.builder {s t : State} (h : OnlyConditions s t) : t.builder = s.builder :=
  h.frame.2.2.2.2.2.2.2.2.1
theorem OnlyConditions.pending {s t : State} (h : OnlyConditions s t) : t.pending = s.pending :=
  h.frame.2.2.2.2.2.2.2.2.2.2.2.2.2.1
theorem OnlyConditions.aq {s t : State} (h : OnlyConditions s t) : t.aq = { s.aq with throttle := t.aq.throttle } :=
  h.frame.2.2.2.2.2.2.2.2.2.2.2.2.2.2.2.1
theorem OnlyConditions.tx {s t : State} (h : OnlyConditions s t) :
    t.tx = { s.tx with waitingFrame := t.tx.waitingFrame } := h.frame.2.2.2.2.2.2.2.2.2.2.2.2.2.2.2.2

theorem throttleOn_only (s : State) : OnlyConditions s (throttleOn s) := by
  unfold throttleOn
  split
  · exact .refl s
  · exact ⟨_, _, _, _, rfl⟩

theorem throttleOff_only (s : State) : OnlyConditions s (throttleOff s) := by
  unfold throttleOff
  split
  · exact ⟨_, _, _, _, rfl⟩
  · exact .refl s

theorem throttleRelax_only (s : State) : OnlyConditions s (throttleRelax s) := by
  unfold throttleRelax
  split
  · exact throttleOff_only s
  · exact .refl s

theorem mapCond_only (f : CondTable → CondTable) (s : State) : OnlyConditions s (s.mapCond f) := ⟨_, _, _, _, rfl⟩

/-- A change of the acquisition state is one of the four. -/
theorem mapAcqState_only (g : Acquisition → AcqState) (s : State) :
    OnlyConditions s (s.mapAcq fun a => { a with state := g a }) := ⟨_, _, _, _, rfl⟩

theorem enterSuspended_only (s : State) : OnlyConditions s (enterSuspended s) :=
  (mapAcqState_only (fun _ => .suspended) s).trans (throttleOn_only _)

theorem onClass3Raised_only (s : State) : OnlyConditions s (onClass3Raised s) := by
  unfold onClass3Raised
  split
  · exact enterSuspended_only s
  · exact enterSuspended_only s
  · exact .refl s
  · exact .refl s
  · exact .refl s

theorem onClass3Cleared_only (s : State) : OnlyConditions s (onClass3Cleared s) := by
  unfold onClass3Cleared
  split
  · exact (mapAcqState_only _ s).trans (throttleRelax_only _)
  · exact .refl s
  · exact .refl s
  · exact .refl s
  · exact .refl s

theorem changeConds_only (f : CondTable → CondTable) (s : State) : OnlyConditions s (changeConds f s) := by
  unfold changeConds
  dsimp only
  split
  · exact (mapCond_only f s).trans (onClass3Raised_only _)
  · exact (mapCond_only f s).trans (onClass3Cleared_only _)
  · exact mapCond_only f s
  · exact mapCond_only f s

theorem occur_only (c : Cond) (ev : Option EventNum) (s : State) : OnlyConditions s (occur c ev s) :=
  changeConds_only _ s

theorem occurIf_only (b : Bool) (c : Cond) (ev : Option EventNum) (s : State) :
    OnlyConditions s (occurIf b c ev s) := by
  unfold occurIf
  split
  · exact occur_only c ev s
  · exact .refl s

theorem occurAll_only (cs : List Cond) (s : State) : OnlyConditions s (occurAll cs s) := by
  unfold occurAll
  induction cs generalizing s with
  | nil => exact .refl s
  | cons c t ih => exact (occur_only c none s).trans (ih _)

theorem tally_only (f : Counters → Counters) (s : State) : OnlyConditions s (tally f s) := mapCond_only _ s

/-! ## The Condition Table itself -/

@[simp] theorem throttleOn_cond (s : State) : (throttleOn s).cond = s.cond := by
  unfold throttleOn
  split <;> rfl

@[simp] theorem throttleOff_cond (s : State) : (throttleOff s).cond = s.cond := by
  unfold throttleOff
  split <;> rfl

@[simp] theorem throttleRelax_cond (s : State) : (throttleRelax s).cond = s.cond := by
  unfold throttleRelax
  split
  · exact throttleOff_cond s
  · rfl

@[simp] theorem onClass3Raised_cond (s : State) : (onClass3Raised s).cond = s.cond := by
  unfold onClass3Raised
  split <;> simp [enterSuspended]

@[simp] theorem onClass3Cleared_cond (s : State) : (onClass3Cleared s).cond = s.cond := by
  unfold onClass3Cleared
  split <;> simp

/-- Handing over class 3 changes nothing of the table. -/
@[simp] theorem changeConds_cond (f : CondTable → CondTable) (s : State) : (changeConds f s).cond = f s.cond := by
  unfold changeConds
  dsimp only
  split <;> simp

@[simp] theorem tally_cond (f : Counters → Counters) (s : State) :
    (tally f s).cond = { s.cond with counters := f s.cond.counters } := rfl

/-- The record of the condition that occurs. -/
theorem occur_rec (c : Cond) (ev : Option EventNum) (s : State) :
    (occur c ev s).cond.recs[c.num] = (s.cond.recs[c.num]).occur ev := by
  simp [occur, put]

/-- The records of the others stay. -/
theorem occur_rec_other (c : Cond) (ev : Option EventNum) (s : State) (i : Fin 25) (h : i ≠ c.num) :
    (occur c ev s).cond.recs[i] = s.cond.recs[i] := by
  simp only [occur, changeConds_cond, put, Fin.getElem_fin]
  exact Vector.getElem_set_ne _ _ (by omega)

@[simp] theorem occur_counters (c : Cond) (ev : Option EventNum) (s : State) :
    (occur c ev s).cond.counters = s.cond.counters := by
  simp [occur]

/-! ## Class 3 moves nothing where it does not change -/

/-- A change that leaves class 3 raised or clear, as it was, changes the table alone. -/
theorem changeConds_same (f : CondTable → CondTable) (s : State) (h : class3 (s.mapCond f) = class3 s) :
    changeConds f s = s.mapCond f := by
  unfold changeConds
  cases h3 : class3 s <;> simp [h, h3]

/-- A change that raises class 3 hands the raising over. -/
theorem changeConds_raises (f : CondTable → CondTable) (s : State) (h : class3 s = false)
    (h' : class3 (s.mapCond f) = true) : changeConds f s = onClass3Raised (s.mapCond f) := by
  simp [changeConds, h, h']

/-- A change that clears class 3 hands the clearing over. -/
theorem changeConds_clears (f : CondTable → CondTable) (s : State) (h : class3 s = true)
    (h' : class3 (s.mapCond f) = false) : changeConds f s = onClass3Cleared (s.mapCond f) := by
  simp [changeConds, h, h']

end Sys2Proof.Machine
end

