-- ==== Sys2Proof/Laws/Builder.lean ====
section
/-!
SUPPORT. What the builder's own going-on does: where it stops at once, and what it keeps.
-/

namespace Sys2Proof.Machine

/-- A build with an entry in flight waits for it. -/
theorem settleBuilder_building (s : State) (b : Build) (h : s.builder.state = .building b)
    (hi : s.builder.inFlight.isSome = true) : settleBuilder s = s := by
  have h2 : buildDone s = false := by
    cases hh : s.builder.inFlight <;> simp_all [buildDone]
  simp [settleBuilder, runBuilder, h, h2]

/-- An IDLE builder with no record waits for one. -/
theorem settleBuilder_idle (s : State) (h : s.builder.state = .idle) (hr : s.aq.records = []) : settleBuilder s = s := by
  simp [settleBuilder, runBuilder, h, hr]

/-- A READY fragment that does not fit waits for room. -/
theorem settleBuilder_ready (s : State) (b : Build) (h : s.builder.state = .ready b) (hf : fits b s = false) :
    settleBuilder s = s := by
  simp [settleBuilder, runBuilder, h, hf]

/-- What a record start, the entry into READY and an append keep, the builder's going-on keeps. -/
theorem settleBuilder_keeps (P : State → Prop)
    (h1 : ∀ s r rest, P s → s.builder.state = .idle → s.aq.records = r :: rest → P (startRecord r s))
    (h2 : ∀ s b, P s → s.builder.state = .building b → s.builder.inFlight = none →
      P (s.mapBuilder fun _ => { state := .ready b, inFlight := none }))
    (h3 : ∀ s b, P s → s.builder.state = .ready b → fits b s = true → P (appendFragment b s)) (s : State) (h : P s) :
    P (settleBuilder s) := by
  unfold settleBuilder
  generalize 3 * s.aq.records.length + 3 = k
  induction k generalizing s with
  | zero => exact h
  | succ k ih =>
    unfold runBuilder
    split
    · next hb =>
      split
      · exact h
      · next r rest hr => exact ih _ (h1 s r rest h hb hr)
    · next b hb =>
      split
      · next hd => exact ih _ (h2 s b h hb (by simpa [buildDone] using hd))
      · exact h
    · next b hb =>
      split
      · next hf => exact ih _ (h3 s b h hb hf)
      · exact h

/-- A record start changes the list's commit and the builder. -/
theorem startRecord_eq (r : Record) (s : State) :
    startRecord r s = { s with list := (startRecord r s).list, builder := (startRecord r s).builder } := by
  unfold startRecord
  dsimp only
  split <;> rfl

/-- Entry into STANDBY: the state and the list besides what an occurrence can change. -/
theorem enterStandby_frame (s : State) :
    OnlyConditions { s with list := (enterStandby s).list } (enterStandby s) := by
  unfold enterStandby
  dsimp only
  split
  · rw [show (occur .listSwapStop none (applyCommit (s.mapAcq fun a => { a with state := .standby }))).list
        = (applyCommit (s.mapAcq fun a => { a with state := .standby })).list from
      (occur_only _ _ _).frame.2.2.2.2.2.2.2.1]
    refine OnlyConditions.trans ?_ (occur_only _ _ _)
    exact ⟨_, _, _, _, rfl⟩
  · exact ⟨_, _, _, _, rfl⟩

end Sys2Proof.Machine
end

