-- ==== Sys2Proof/Laws/Bytes.lean ====
section
/-!
SUPPORT. Reading a payload gives back what was written into it: numbers of one to four bytes, masks, coefficients, and the
records that requests carry.
-/

namespace Sys2Proof.Machine

theorem be16_bytes (n : Nat) (h : n < 65536) : be16 (BitVec.ofNat 8 (n / 256)) (BitVec.ofNat 8 n) = n := by
  simp only [be16, BitVec.toNat_ofNat]
  omega

theorem be24_bytes (n : Nat) (h : n < 16777216) :
    be24 (BitVec.ofNat 8 (n / 65536)) (BitVec.ofNat 8 (n / 256)) (BitVec.ofNat 8 n) = n := by
  simp only [be24, BitVec.toNat_ofNat]
  omega

theorem be32_bytes (n : Nat) (h : n < 4294967296) :
    be32 (BitVec.ofNat 8 (n / 16777216)) (BitVec.ofNat 8 (n / 65536)) (BitVec.ofNat 8 (n / 256)) (BitVec.ofNat 8 n) = n := by
  simp only [be32, BitVec.toNat_ofNat]
  omega

theorem readMask_bytes (m : ChanMask) :
    readMask (BitVec.ofNat 8 (m.toNat / 256)) (BitVec.ofNat 8 m.toNat) = m := by
  rw [readMask, be16_bytes _ m.isLt, BitVec.ofNat_toNat, BitVec.setWidth_eq]

theorem readMask_pair (a b : Byte) : readMask a b = a ++ b := by
  apply BitVec.eq_of_toNat_eq
  have := a.isLt
  have := b.isLt
  rw [BitVec.toNat_append, readMask, BitVec.toNat_ofNat, be16, Nat.shiftLeft_eq, ← Nat.shiftLeft_eq,
    ← Nat.shiftLeft_add_eq_or_of_lt (by omega), Nat.shiftLeft_eq]
  omega

theorem inRange_eq {lo hi n : Nat} (h1 : lo ≤ n) (h2 : n ≤ hi) : inRange lo hi n = some n := by
  simp [inRange, h1, h2]

theorem inRange_none {lo hi n : Nat} (h : n < lo ∨ hi < n) : inRange lo hi n = none := by
  simp only [inRange]
  split
  · omega
  · rfl

theorem readChan_byte (c : Chan) : readChan (BitVec.ofNat 8 c.val) = some c := by
  revert c; decide

theorem readSet_byte (k : Fin 8) : readSet (BitVec.ofNat 8 k.val) = some k := by
  revert k; decide

theorem readCond_byte (i : Fin 25) : readCond (BitVec.ofNat 8 i.val) = some i := by
  revert i; decide

theorem readFlag_byte (b : Bool) : readFlag (BitVec.ofNat 8 (flagCode b)) = some b := by
  cases b <;> rfl

theorem readGain_byte (g : Gain) : readGain (BitVec.ofNat 8 (gainCode g)) = some g := by
  cases g <;> rfl

theorem readClass_byte (k : CondClass) : readClass (BitVec.ofNat 8 k.code) = some k := by
  cases k <;> rfl

theorem readTrainMode_byte (m : TrainMode) : readTrainMode (BitVec.ofNat 8 m.code) = some m := by
  cases m <;> rfl

theorem readScanMode_byte (m : ScanMode) : readScanMode (BitVec.ofNat 8 m.code) = some m := by
  cases m <;> rfl

theorem readCopy_byte (b : Bool) : readCopy (BitVec.ofNat 8 (flagCode b)) = some b := by
  cases b <;> rfl

theorem readGainSel_byte (g : Nat) (h : g ≤ 2) :
    readGainSel (BitVec.ofNat 8 g) = some ⟨decide (g ≠ 1), decide (g ≠ 0)⟩ := by
  interval_cases g <;> rfl

theorem toNat_byte (n : Nat) (h : n ≤ 255) : (BitVec.ofNat 8 n).toNat = n := by
  simp only [BitVec.toNat_ofNat]
  omega

/-- A channel record is read as it was written (R200). -/
theorem readChanRec_bytes (r : ChanRec) (h : r.Legal) :
    readChanRec (BitVec.ofNat 8 (flagCode r.enable)) (BitVec.ofNat 8 (r.hgThreshold / 256))
      (BitVec.ofNat 8 r.hgThreshold) (BitVec.ofNat 8 (r.lgThreshold / 256)) (BitVec.ofNat 8 r.lgThreshold)
      (BitVec.ofNat 8 (r.gainRatio / 256)) (BitVec.ofNat 8 r.gainRatio) (BitVec.ofNat 8 r.hgSet.val)
      (BitVec.ofNat 8 r.lgSet.val) = some r := by
  obtain ⟨⟨h1, h2⟩, ⟨h3, h4⟩, h5, h6⟩ := h
  simp [readChanRec, readFlag_byte, be16_bytes, readSet_byte, inRange_eq h1 h2, inRange_eq h3 h4, inRange_eq h5 h6,
    show r.hgThreshold < 65536 by omega, show r.lgThreshold < 65536 by omega, show r.gainRatio < 65536 by omega]

/-- The tracking settings are read as they were written (R76). -/
theorem readTrackSettings_bytes (t : TrackSettings) (h : t.Legal) :
    readTrackSettings (BitVec.ofNat 8 (flagCode t.tracking)) (BitVec.ofNat 8 (flagCode t.autoTrim))
      (BitVec.ofNat 8 (t.target.hg / 256)) (BitVec.ofNat 8 t.target.hg) (BitVec.ofNat 8 (t.target.lg / 256))
      (BitVec.ofNat 8 t.target.lg) (BitVec.ofNat 8 t.hysteresis) (BitVec.ofNat 8 t.blockExp)
      (BitVec.ofNat 8 t.updateExp) = some t := by
  obtain ⟨⟨h1, h2⟩, ⟨h3, h4⟩, ⟨h5, h6⟩, ⟨h7, h8⟩, h9⟩ := h
  simp only [readTrackSettings, readFlag_byte, be16_bytes _ (show t.target.hg < 65536 by omega),
    be16_bytes _ (show t.target.lg < 65536 by omega), toNat_byte _ (show t.hysteresis ≤ 255 by omega),
    toNat_byte _ (show t.blockExp ≤ 255 by omega), toNat_byte _ (show t.updateExp ≤ 255 by omega), inRange_eq h1 h2,
    inRange_eq h3 h4, inRange_eq h5 h6, inRange_eq h7 h8, inRange_eq (Nat.zero_le _) h9]
  rfl

/-- The train settings are read as they were written (R164). -/
theorem readTrain_bytes (t : TrainSettings) (h : t.Legal) :
    readTrain (BitVec.ofNat 8 (t.mask.toNat / 256)) (BitVec.ofNat 8 t.mask.toNat) (BitVec.ofNat 8 (t.amplitude / 256))
      (BitVec.ofNat 8 t.amplitude) (BitVec.ofNat 8 t.delay) (BitVec.ofNat 8 t.count) (BitVec.ofNat 8 t.spacing)
      (BitVec.ofNat 8 t.mode.code) = some t := by
  obtain ⟨h1, h2, ⟨h3, h4⟩, h5, h6⟩ := h
  simp only [readTrain, readMask_bytes, readTrainMode_byte, be16_bytes _ (show t.amplitude < 65536 by omega),
    toNat_byte _ h2, toNat_byte _ (show t.count ≤ 255 by omega), toNat_byte _ h6,
    inRange_eq (Nat.zero_le _) h1, inRange_eq h3 h4, inRange_eq h5 h6]
  rfl

/-- The scan settings are read as they were written (R175). -/
theorem readScan_bytes (t : ScanSettings) (h : t.Legal) :
    readScan (BitVec.ofNat 8 t.startChan.val) (BitVec.ofNat 8 t.endChan.val) (BitVec.ofNat 8 t.mode.code)
      (BitVec.ofNat 8 (t.gateLength / 256)) (BitVec.ofNat 8 t.gateLength) = some t := by
  obtain ⟨h1, h2, h3⟩ := h
  have h4 : t.endChan.val ≤ 15 := by omega
  have h5 : t.startChan.val ≤ t.endChan.val := h1
  simp [readScan, readChan_byte, readScanMode_byte, be16_bytes _ (show t.gateLength < 65536 by omega),
    inRange_eq h5 h4, inRange_eq h2 h3]

/-- Coefficients are read as they were written (R99). -/
theorem readCoefs_bytes (cs : List (BitVec 16)) : readCoefs (coefBytes cs) = some cs := by
  induction cs with
  | nil => rfl
  | cons c t ih =>
    have h : readCoefs (coefBytes (c :: t)) = (readCoefs (coefBytes t)).map fun cs =>
        BitVec.ofNat 16 (be16 (BitVec.ofNat 8 (c.toNat / 256)) (BitVec.ofNat 8 c.toNat)) :: cs := rfl
    rw [h, ih, be16_bytes _ c.isLt]
    simp

theorem coefBytes_length (cs : List (BitVec 16)) : (coefBytes cs).length = 2 * cs.length := by
  induction cs with
  | nil => rfl
  | cons c t ih =>
    have h : (coefBytes (c :: t)).length = (coefBytes t).length + 2 := rfl
    simp only [h, ih, List.length_cons]
    omega

theorem coefBytes_append (a b : List (BitVec 16)) : coefBytes (a ++ b) = coefBytes a ++ coefBytes b := by
  simp [coefBytes]

/-- A list entry is read as it was written (R200). -/
theorem readEntry_bytes (e : Entry) (h : e.Legal) :
    readEntry (BitVec.ofNat 8 (e.channel.val + 16 * e.mode.code))
      (BitVec.ofNat 8 (e.policy.code + 4 * e.suppression.code + 16 * flagCode e.keepOnFlag))
      (BitVec.ofNat 8 (e.peakLo + 16 * e.peakHi))
      (BitVec.ofNat 8 (e.threshold / 65536)) (BitVec.ofNat 8 (e.threshold / 256)) (BitVec.ofNat 8 e.threshold)
      (BitVec.ofNat 8 (e.timeThreshold / 65536)) (BitVec.ofNat 8 (e.timeThreshold / 256))
      (BitVec.ofNat 8 e.timeThreshold) = some e := by
  obtain ⟨h1, h2, h3, h4⟩ := h
  obtain ⟨c, m, p, su, th, k, lo, hi, tt⟩ := e
  simp only at h1 h2 h3 h4
  have a0 : (BitVec.ofNat 8 (c.val + 16 * m.code)).extractLsb' 4 4 = BitVec.ofNat 4 m.code := by
    revert c; cases m <;> decide
  have a1 : (BitVec.ofNat 8 (c.val + 16 * m.code)).extractLsb' 0 4 = BitVec.ofNat 4 c.val := by
    revert c; cases m <;> decide
  have b0 : (BitVec.ofNat 8 (p.code + 4 * su.code + 16 * flagCode k)).extractLsb' 0 2 = BitVec.ofNat 2 p.code := by
    cases p <;> cases su <;> cases k <;> decide
  have b1 : (BitVec.ofNat 8 (p.code + 4 * su.code + 16 * flagCode k)).extractLsb' 2 2 = BitVec.ofNat 2 su.code := by
    cases p <;> cases su <;> cases k <;> decide
  have b2 : (BitVec.ofNat 8 (p.code + 4 * su.code + 16 * flagCode k)).extractLsb' 5 3 = 0 := by
    cases p <;> cases su <;> cases k <;> decide
  have b3 : (BitVec.ofNat 8 (p.code + 4 * su.code + 16 * flagCode k)).getLsbD 4 = k := by
    cases p <;> cases su <;> cases k <;> decide
  have c0 : ((BitVec.ofNat 8 (lo + 16 * hi)).extractLsb' 0 4).toNat = lo := by
    simp [BitVec.extractLsb'_toNat]; omega
  have c1 : ((BitVec.ofNat 8 (lo + 16 * hi)).extractLsb' 4 4).toNat = hi := by
    simp [BitVec.extractLsb'_toNat, Nat.shiftRight_eq_div_pow]; omega
  have d0 : readMode (BitVec.ofNat 4 m.code).toNat = some m := by cases m <;> rfl
  have d1 : readPolicy (BitVec.ofNat 2 p.code).toNat = some p := by cases p <;> rfl
  have d2 : readSuppression (BitVec.ofNat 2 su.code).toNat = some su := by cases su <;> rfl
  have d3 : (BitVec.ofNat 4 c.val).toFin = c := by
    clear a0 a1
    revert c; decide
  simp only [readEntry, a0, a1, b0, b1, b2, b3, c0, c1, d0, d1, d2, d3, be24_bytes _ (show th < 16777216 by omega),
    be24_bytes _ (show tt < 16777216 by omega), inRange_eq h3 h4, inRange_eq (Nat.zero_le _) h1,
    inRange_eq (Nat.zero_le _) h2]
  rfl

end Sys2Proof.Machine
end

