-- ==== Sys2Proof/Laws/Frame.lean ====
section
/-!
SUPPORT. The things one timing-link frame brings about are taken in some order of the same list, whatever the free value says;
what every one of them keeps, the frame keeps.
-/

namespace Sys2Proof.Machine

/-- The order is a rearrangement of the order of R26. -/
theorem actOrder_perm (fc : FastCommands) (s : State) : (actOrder fc s).Perm frameActs := by
  unfold actOrder
  split
  · split
    · assumption
    · exact List.Perm.refl _
  · exact List.Perm.refl _

/-- A frame with no accept that cannot find the pending list full is taken in the order of R26. -/
theorem actOrder_plain (fc : FastCommands) (s : State) (ha : fc.accept = false) (hp : s.inj.pending.length < 8) :
    actOrder fc s = frameActs := by
  simp [actOrder, classRace, listRace, ha, Nat.not_le.2 hp]

/-- What each of the things keeps, all of them keep. -/
theorem foldActs_keeps (P : State → Prop) (x : FrameContext) (acts : List FrameAct)
    (h : ∀ a ∈ acts, ∀ s, P s → P (frameAct x a s)) (s : State) (hs : P s) :
    P (acts.foldl (fun s a => frameAct x a s) s) := by
  induction acts generalizing s with
  | nil => exact hs
  | cons a t ih => exact ih (fun b hb => h b (by simp [hb])) _ (h a (by simp) s hs)

/-- A value that one of the things sets, and that no other changes or looks at in setting it, is set once. -/
theorem foldActs_once {α : Type} (x : FrameContext) (f : State → α) (g : α → α) (a0 : FrameAct) (acts : List FrameAct)
    (hd : acts.Nodup) (hm : a0 ∈ acts) (h0 : ∀ s, f (frameAct x a0 s) = g (f s))
    (h : ∀ a, a ≠ a0 → ∀ s, f (frameAct x a s) = f s) (s : State) :
    f (acts.foldl (fun s a => frameAct x a s) s) = g (f s) := by
  induction acts generalizing s with
  | nil => simp at hm
  | cons a t ih =>
    simp only [List.foldl_cons]
    rcases List.nodup_cons.1 hd with ⟨ht, hd⟩
    by_cases ha : a = a0
    · subst ha
      have : ∀ (t : List FrameAct), a ∉ t → ∀ s, f (t.foldl (fun s a => frameAct x a s) s) = f s := by
        intro t
        induction t with
        | nil => intro _ s; rfl
        | cons b t ih =>
          intro hb s
          simp only [List.mem_cons, not_or] at hb
          rw [List.foldl_cons, ih hb.2, h b (Ne.symm hb.1)]
      rw [this t ht, h0]
    · rw [ih hd (by simpa [Ne.symm ha] using hm), h a ha]

/-- The order holds each of the things once. -/
theorem actOrder_nodup (fc : FastCommands) (s : State) : (actOrder fc s).Nodup :=
  (actOrder_perm fc s).nodup_iff.2 (by decide)

/-- The order holds every one of the things. -/
theorem mem_actOrder (fc : FastCommands) (s : State) (a : FrameAct) : a ∈ actOrder fc s :=
  (actOrder_perm fc s).mem_iff.2 (by cases a <;> decide)

/-- What the Timing Receiver's own part of a frame changes: its own block, the lock state of the synthesiser, and what an
occurrence can change. -/
theorem receiverFrame_frame (f : Byte) (s : State) :
    OnlyConditions { s with timing := (receiverFrame f s).timing, clk := (receiverFrame f s).clk } (receiverFrame f s) := by
  have tm : ∀ (a b : State) (g : Timing → Timing),
      OnlyConditions { a with timing := b.timing, clk := b.clk } b →
      OnlyConditions { a with timing := (b.mapTiming g).timing, clk := (b.mapTiming g).clk } (b.mapTiming g) := by
    rintro a b g ⟨c, st, th, wf, h⟩
    refine ⟨c, st, th, wf, ?_⟩
    rw [h]
    rfl
  have oc : ∀ (a b d : State), OnlyConditions { a with timing := b.timing, clk := b.clk } b → OnlyConditions b d →
      OnlyConditions { a with timing := d.timing, clk := d.clk } d := by
    rintro a b d ⟨c, st, th, wf, h⟩ ⟨c', st', th', wf', rfl⟩
    refine ⟨c', st', th', wf', ?_⟩
    rw [h]
  have h0 : OnlyConditions { s with timing := (clockAppears s).timing, clk := (clockAppears s).clk } (clockAppears s) := by
    unfold clockAppears
    split
    · exact .refl _
    · exact ⟨_, _, _, _, rfl⟩
  have h1 : ∀ good, OnlyConditions
      { s with timing := (takeFrame good (clockAppears s)).timing, clk := (takeFrame good (clockAppears s)).clk }
      (takeFrame good (clockAppears s)) := by
    intro good
    have h := tm _ _ (fun t => { t with lastTaken := t.candidate }) h0
    unfold takeFrame
    dsimp only
    split
    · exact h
    · exact tm _ _ _ h
    · split
      · exact tm _ _ _ h
      · unfold badFrame enterSeeking
        dsimp only
        split
        · exact oc _ _ _ (tm _ _ _ (oc _ _ _ (tm _ _ _ h) (occur_only _ _ _))) (occur_only _ _ _)
        · exact oc _ _ _ (tm _ _ _ h) (occur_only _ _ _)
  have h2 := tm _ _ (fun t =>
    { t with serial := t.serial + 1, counter := if t.counter + 1 < t.turnLength then t.counter + 1 else 0 })
    (h1 (frameGood f))
  unfold receiverFrame
  dsimp only
  refine tm _ _ _ (tm _ _ _ ?_)
  split
  · exact oc _ _ _ (tm _ _ _ h2) (occurIf_only _ _ _ _)
  · exact h2

end Sys2Proof.Machine
end

