-- ==== Sys2Proof/Laws/Port.lean ====
section
/-!
SUPPORT. What the Control Port does before an event, and with a request: at once, refused in manual trim mode, or kept waiting.
-/

namespace Sys2Proof.Machine

/-! ## The two updates of the port -/

@[simp] theorem setExecuting_ctl (x : Execution) (s : State) :
    (setExecuting x s).ctl = { s.ctl with executing := x } := rfl
@[simp] theorem setBuffer_ctl (held : List Frame) (s : State) : (setBuffer held s).ctl = { s.ctl with buffer := held } := rfl
@[simp] theorem executeOldest_buffer (f : Frame) (rest : List Frame) (s : State) :
    (executeOldest f rest s).ctl.buffer = rest := rfl
@[simp] theorem cclrReply_buffer (tag : Byte) (s : State) : (cclrReply tag s).ctl.buffer = s.ctl.buffer := rfl

/-! ## Before an event -/

/-- A quiet port does nothing before an event. -/
theorem beforeEvent_quiet {s : State} (h : PortQuiet s) : beforeEvent s = s := by
  obtain ⟨acq, front, pipe, timing, clk, aq, ped, trim, filt, list, builder, tx, inj, integ, cond, ⟨rec, buf, ex, sent⟩, fi, pd⟩ := s
  cases ex <;> simp_all only [PortQuiet]
  · rfl
  · cases buf <;> rfl
  · cases buf <;> rfl

/-- At a quiet port an event has its effect, and nothing comes before it. -/
theorem duringEvent_quiet {s : State} (effect : State → State) (h : PortQuiet s) : duringEvent effect s = effect s := by
  rw [duringEvent, beforeEvent_quiet h]

/-- An idle port is quiet. -/
theorem PortIdle.quiet {s : State} (h : PortIdle s) : PortQuiet s := by
  simp [PortQuiet, h.1, h.2]

/-- While more events come before the reply's last byte has gone, the port goes on sending. -/
theorem beforeEvent_sending {s : State} {n : Nat} (h : s.ctl.executing = .sending (n + 1)) :
    beforeEvent s = setExecuting (.sending n) s := by
  unfold beforeEvent
  cases s.ctl.buffer <;> simp [portWork, formCclr, mayExecute, Execution.eventComes, h]

/-- A reply whose last byte has gone leaves a port with no frame free. -/
theorem beforeEvent_sent {s : State} (h : s.ctl.executing = .sending 0) (hb : s.ctl.buffer = []) :
    beforeEvent s = setExecuting .none s := by
  simp [beforeEvent, portWork, formCclr, mayExecute, h, hb]

/-- A reply whose last byte has gone lets the oldest frame be executed, and then the port goes on. -/
theorem beforeEvent_held {s : State} {f : Frame} {rest : List Frame} (h : s.ctl.executing = .sending 0)
    (hb : s.ctl.buffer = f :: rest) : beforeEvent s = beforeEvent (executeOldest f rest s) := by
  simp [beforeEvent, portWork, formCclr, mayExecute, h, hb, executeOldest, setBuffer, State.mapCtl]

/-- While more events of its moment come, the reply of cclr is not formed. -/
theorem beforeEvent_cclr {s : State} {tag : Byte} {n : Nat} (h : s.ctl.executing = .cclr tag (n + 1)) :
    beforeEvent s = setExecuting (.cclr tag n) s := by
  unfold beforeEvent
  cases s.ctl.buffer <;> simp [portWork, formCclr, mayExecute, Execution.eventComes, h]

/-- When no more come, the reply of cclr is formed, and then the port goes on. -/
theorem beforeEvent_cclr_formed {s : State} {tag : Byte} (h : s.ctl.executing = .cclr tag 0) :
    beforeEvent s = beforeEvent (cclrReply tag s) := by
  have hf : formCclr (cclrReply tag s) = cclrReply tag s := rfl
  have hs : formCclr s = cclrReply tag s := by simp [formCclr, h]
  have hb : (cclrReply tag s).ctl.buffer = s.ctl.buffer := rfl
  unfold beforeEvent
  rw [hb]
  cases s.ctl.buffer <;> simp only [portWork, hs, hf]

/-- What the reply of cclr, the execution of the oldest frame and the passing of events keep, the port keeps. -/
theorem beforeEvent_keeps (P : State → Prop) (hc : ∀ tag s, P s → P (cclrReply tag s))
    (hf : ∀ f rest s, P s → P (executeOldest f rest s)) (hx : ∀ x s, P s → P (setExecuting x s)) (s : State) (h : P s) :
    P (beforeEvent s) := by
  have hform : ∀ s, P s → P (formCclr s) := by
    intro s h
    unfold formCclr
    split <;> first | exact hc _ _ h | exact h
  unfold beforeEvent
  generalize s.ctl.buffer = held
  induction held generalizing s with
  | nil => exact hx _ _ (hform s h)
  | cons f rest ih =>
    unfold portWork
    simp only
    split
    · exact ih _ (hf f rest _ (hform s h))
    · exact hx _ _ (hform s h)

/-! ## A request that arrives -/

variable (name : BitVec 32) (r : Request) (body : Request → State → State)

/-- An idle port outside manual trim mode executes the request. -/
theorem serve_takes {s : State} (b : Bool) (h : TakesRequests s) : serve name b r body s = body r s := by
  obtain ⟨h1, h2⟩ := h
  simp [serve, duringEvent_quiet _ h1.quiet, portFree, h1.1, takeRequest, h2]

/-- An idle port executes a request that manual trim mode takes. -/
theorem serve_always {s : State} (h : PortIdle s) : serve name true r body s = body r s := by
  simp [serve, duringEvent_quiet _ h.quiet, portFree, h.1, takeRequest]

/-- An idle port in manual trim mode refuses the others BADSTATE. -/
theorem serve_manual {s : State} (h : PortIdle s) (hm : inManual s = true) :
    serve name false r body s = answer r.tag .badState [] s := by
  simp [serve, duringEvent_quiet _ h.quiet, portFree, h.1, takeRequest, hm, refuse]

/-- With a request in execution, the request waits as a received frame does. -/
theorem serve_waits {s : State} (b : Bool) (hq : PortQuiet s) (h : s.ctl.executing ≠ .none) :
    serve name b r body s = receiveFrame { tag := r.tag, name := name, payload := r.payload } s := by
  simp [serve, duringEvent_quiet _ hq, portFree, h]

/-- A property that the port's work, reception, a refusal and the body keep is kept. -/
theorem serve_keeps (P : State → Prop) (b : Bool) (s : State) (h : P (beforeEvent s))
    (hr : ∀ f s, P s → P (receiveFrame f s)) (ha : ∀ s, P s → P (answer r.tag .badState [] s))
    (hb : ∀ s, P s → P (body r s)) : P (serve name b r body s) := by
  unfold serve duringEvent takeRequest
  simp only
  split
  · split
    · exact ha _ h
    · exact hb _ h
  · exact hr _ _ h

/-- A reply changes the replies sent and what holds the port, and nothing else. -/
theorem answer_eq (tag : Byte) (st : Status) (p : List Byte) (s : State) :
    answer tag st p s =
      { s with ctl := { s.ctl with
        sent := s.ctl.sent ++ [replyFrame tag st s.cond.summary p],
        executing := .sending (Config.replyTime s.ctl.sent.length) } } :=
  rfl

/-- A received frame joins the buffer, or CTL_OVERRUN occurs. -/
theorem receiveFrame_eq (f : Frame) (s : State) :
    receiveFrame f s =
      if s.ctl.buffer.length < 2 then { s with ctl := { s.ctl with buffer := s.ctl.buffer ++ [f] } }
      else occur .ctlOverrun none s := by
  unfold receiveFrame
  split <;> simp_all [State.mapCtl]

/-- The command of a frame whose name is one of the part's carries the frame's tag and payload. -/
theorem commandOf_known (f : Frame) (h : isCommandName f.name = true) :
    ∃ e ∈ commandNames, e.1 = f.name ∧ commandOf f = e.2 { tag := f.tag, payload := f.payload } := by
  unfold commandOf
  cases hf : commandNames.find? fun e => decide (e.1 = f.name) with
  | none =>
    exfalso
    simp only [isCommandName, List.contains_iff_mem, List.mem_map] at h
    obtain ⟨e, he, h⟩ := h
    have := List.find?_eq_none.1 hf e he
    simp [h] at this
  | some e => exact ⟨e, List.mem_of_find?_eq_some hf, by simpa using List.find?_some hf, rfl⟩

/-- A frame with any other name makes an unknown command. -/
theorem commandOf_unknown (f : Frame) (h : isCommandName f.name = false) :
    commandOf f = .unknownCommand f.name { tag := f.tag, payload := f.payload } := by
  unfold commandOf
  cases hf : commandNames.find? fun e => decide (e.1 = f.name) with
  | none => rfl
  | some e =>
    exfalso
    have h1 := List.mem_of_find?_eq_some hf
    have h2 : e.1 = f.name := by simpa using List.find?_some hf
    rw [← h2] at h
    have : isCommandName e.1 = true := by
      simp only [isCommandName, List.contains_iff_mem, List.mem_map]
      exact ⟨e, h1, rfl⟩
    simp [h] at this

/-! ## The commands of frames -/

/-- At an idle port the command of a frame is the execution of its request. -/
theorem exec_commandOf (f : Frame) {s : State} (h : PortIdle s) :
    exec (commandOf f) s = .next (runRequest (commandOf f) s) := by
  have hs : ∀ name b (r : Request) body, serve name b r body s = takeRequest b r body s := by
    intro name b r body
    simp [serve, duringEvent_quiet _ h.quiet, portFree, h.1]
  cases hf : isCommandName f.name with
  | false =>
    rw [commandOf_unknown f hf]
    simp [exec, execUnknownCommand, hf, hs, runRequest]
  | true =>
    obtain ⟨e, he, -, hc⟩ := commandOf_known f hf
    rw [hc]
    simp only [commandNames, List.mem_cons, List.not_mem_nil, or_false] at he
    rcases he with rfl | rfl | rfl | rfl | rfl | rfl | rfl | rfl | rfl | rfl | rfl | rfl | rfl | rfl | rfl | rfl | rfl | rfl |
      rfl | rfl | rfl | rfl | rfl | rfl | rfl | rfl | rfl | rfl | rfl | rfl | rfl | rfl | rfl | rfl | rfl | rfl | rfl | rfl |
      rfl | rfl | rfl | rfl | rfl | rfl <;> exact congrArg _ (hs _ _ _ _)

end Sys2Proof.Machine
end

