-- ==== Sys2Proof/Laws/Rings.lean ====
section
/-!
SUPPORT. The laws of the ring store: a read after a write to the same place gives what was written, a write leaves every other
place alone, and a write keeps the canonical form.
-/

namespace Sys2Proof.Machine

/-- The canonical form of a ring that is not empty, in parts. -/
theorem ringWf_cons (q : Nat) (y : Slot) (t : Ring) :
    ringWf ((q, y) :: t) = true ↔
      q < 512 ∧ y ≠ Slot.cleared ∧ (∀ e ∈ t, q < e.1) ∧ ringWf t = true := by
  simp [ringWf, and_assoc]

/-- A position below every listed one holds a cleared slot. -/
theorem ringRead_below (r : Ring) (p : Nat) (h : ∀ e ∈ r, p < e.1) : ringRead r p = Slot.cleared := by
  induction r with
  | nil => rfl
  | cons e t ih =>
    obtain ⟨q, y⟩ := e
    have hq : p < q := h (q, y) (by simp)
    have := ih fun e he => h e (by simp [he])
    simp [ringRead, this, show q ≠ p by omega]

/-- The slot written is the slot read. -/
theorem ringRead_ringWrite_same (r : Ring) (p : Nat) (x : Slot) (h : ringWf r = true) :
    ringRead (ringWrite r p x) p = x := by
  induction r with
  | nil =>
    unfold ringWrite
    split
    · next hx => simp [ringRead, hx]
    · simp [ringRead]
  | cons e t ih =>
    obtain ⟨q, y⟩ := e
    obtain ⟨_, _, hlt, ht⟩ := (ringWf_cons q y t).1 h
    unfold ringWrite
    split
    · next hpq =>
      split
      · next hx =>
        rw [hx]
        refine ringRead_below _ _ fun e he => ?_
        rcases List.mem_cons.1 he with rfl | he
        · exact hpq
        · exact lt_trans hpq (hlt e he)
      · simp [ringRead]
    · split
      · next hpq =>
        subst hpq
        split
        · next hx => rw [hx]; exact ringRead_below _ _ hlt
        · simp [ringRead]
      · next hpq =>
        simp [ringRead, show q ≠ p by omega, ih ht]

/-- A write leaves every other place alone. -/
theorem ringRead_ringWrite_other (r : Ring) (p p' : Nat) (x : Slot) (h : ringWf r = true) (hp : p' ≠ p) :
    ringRead (ringWrite r p x) p' = ringRead r p' := by
  induction r with
  | nil =>
    unfold ringWrite
    split
    · rfl
    · simp [ringRead, Ne.symm hp]
  | cons e t ih =>
    obtain ⟨q, y⟩ := e
    obtain ⟨_, _, hlt, ht⟩ := (ringWf_cons q y t).1 h
    unfold ringWrite
    split
    · split
      · rfl
      · simp [ringRead, Ne.symm hp]
    · split
      · next hpq =>
        subst hpq
        split
        · simp [ringRead, Ne.symm hp]
        · simp [ringRead, Ne.symm hp]
      · simp [ringRead, ih ht]

/-- What a write lists stands at the position written or stood there before. -/
theorem ringWrite_mem (r : Ring) (p : Nat) (x : Slot) (e : Nat × Slot) (h : e ∈ ringWrite r p x) : e.1 = p ∨ e ∈ r := by
  induction r with
  | nil =>
    unfold ringWrite at h
    split at h
    · simp at h
    · simp at h; simp [h]
  | cons d t ih =>
    obtain ⟨q, y⟩ := d
    unfold ringWrite at h
    split at h
    · split at h
      · exact .inr h
      · rcases List.mem_cons.1 h with rfl | h
        · exact .inl rfl
        · exact .inr h
    · split at h
      · split at h
        · exact .inr (by simp [h])
        · rcases List.mem_cons.1 h with rfl | h
          · exact .inl rfl
          · exact .inr (by simp [h])
      · rcases List.mem_cons.1 h with rfl | h
        · exact .inr (by simp)
        · rcases ih h with h | h
          · exact .inl h
          · exact .inr (by simp [h])

/-- A write keeps the canonical form. -/
theorem ringWf_ringWrite (r : Ring) (p : Nat) (x : Slot) (hp : p < 512) (h : ringWf r = true) :
    ringWf (ringWrite r p x) = true := by
  induction r with
  | nil =>
    unfold ringWrite
    split
    · rfl
    · next hx => exact (ringWf_cons p x []).2 ⟨hp, hx, by simp, rfl⟩
  | cons d t ih =>
    obtain ⟨q, y⟩ := d
    obtain ⟨hq, hy, hlt, ht⟩ := (ringWf_cons q y t).1 h
    unfold ringWrite
    split
    · next hpq =>
      split
      · exact h
      · next hx =>
        refine (ringWf_cons p x _).2 ⟨hp, hx, fun e he => ?_, h⟩
        rcases List.mem_cons.1 he with rfl | he
        · exact hpq
        · exact lt_trans hpq (hlt e he)
    · split
      · next hpq =>
        subst hpq
        split
        · exact ht
        · next hx => exact (ringWf_cons p x t).2 ⟨hp, hx, hlt, ht⟩
      · next h1 h2 =>
        refine (ringWf_cons q y _).2 ⟨hq, hy, fun e he => ?_, ih ht⟩
        rcases ringWrite_mem t p x e he with h3 | h3
        · omega
        · exact hlt e h3

/-- The ring power-on leaves is in the canonical form. -/
theorem ringWf_nil : ringWf [] = true := rfl

end Sys2Proof.Machine
end

