-- ==== Sys2Proof/Laws/Safety.lean ====
section
/-!
SUPPORT. Any change of the Condition Table keeps the rule of R46 and the throttle on in SUSPENDED, since the raising or the
clearing of class 3 that results is handed to the Acquisition Controller in the same event.
-/

namespace Sys2Proof.Machine

@[simp] theorem throttleOn_acq (s : State) : (throttleOn s).acq = s.acq := by
  unfold throttleOn
  split <;> rfl

@[simp] theorem throttleOff_acq (s : State) : (throttleOff s).acq = s.acq := by
  unfold throttleOff
  split <;> rfl

@[simp] theorem throttleRelax_acq (s : State) : (throttleRelax s).acq = s.acq := by
  unfold throttleRelax
  split
  · exact throttleOff_acq s
  · rfl

@[simp] theorem throttleOn_throttle (s : State) : (throttleOn s).aq.throttle = true := by
  unfold throttleOn
  split
  · assumption
  · rfl

@[simp] theorem enterSuspended_state (s : State) : (enterSuspended s).acq.state = .suspended := by
  simp [enterSuspended]

/-- In SUSPENDED the throttle is not relaxed. -/
theorem throttleRelax_suspended (s : State) (h : s.acq.state = .suspended) : throttleRelax s = s := by
  simp [throttleRelax, h]

/-- The rule of R46 survives any change of the table. -/
theorem changeConds_suspendRule (f : CondTable → CondTable) (s : State) (h : SuspendRule s) :
    SuspendRule (changeConds f s) := by
  have hc : class3 (changeConds f s) = class3 (s.mapCond f) := by simp [class3]
  unfold SuspendRule at h ⊢
  rw [hc]
  by_cases he : class3 (s.mapCond f) = class3 s
  · rw [changeConds_same f s he, he]
    exact h
  · cases h3 : class3 s
    · have h3' : class3 (s.mapCond f) = true := by simpa [h3] using he
      rw [changeConds_raises f s h3 h3', h3']
      cases hs : s.acq.state <;> simp [onClass3Raised, hs, h3] at h ⊢
    · have h3' : class3 (s.mapCond f) = false := by simpa [h3] using he
      rw [changeConds_clears f s h3 h3', h3']
      cases hs : s.acq.state <;> simp [onClass3Cleared, hs, h3] at h ⊢
      by_cases hl : s.acq.startL ≤ s.pipe.fill <;> simp [hl]

/-- The throttle stays on throughout a suspension under any change of the table. -/
theorem changeConds_suspendedThrottled (f : CondTable → CondTable) (s : State) (h : SuspendedThrottled s) :
    SuspendedThrottled (changeConds f s) := by
  unfold SuspendedThrottled at h ⊢
  by_cases he : class3 (s.mapCond f) = class3 s
  · rw [changeConds_same f s he]
    exact h
  · cases h3 : class3 s
    · have h3' : class3 (s.mapCond f) = true := by simpa [h3] using he
      rw [changeConds_raises f s h3 h3']
      cases hs : s.acq.state <;> simp [onClass3Raised, hs, enterSuspended] at h ⊢
      exact h
    · have h3' : class3 (s.mapCond f) = false := by simpa [h3] using he
      rw [changeConds_clears f s h3 h3']
      cases hs : s.acq.state <;> simp [onClass3Cleared, hs] at h ⊢
      by_cases hl : s.acq.startL ≤ s.pipe.fill <;> simp [hl]

theorem occur_suspendRule (c : Cond) (ev : Option EventNum) (s : State) (h : SuspendRule s) :
    SuspendRule (occur c ev s) := changeConds_suspendRule _ s h

theorem occur_suspendedThrottled (c : Cond) (ev : Option EventNum) (s : State) (h : SuspendedThrottled s) :
    SuspendedThrottled (occur c ev s) := changeConds_suspendedThrottled _ s h

end Sys2Proof.Machine
end

