-- ==== Sys2Proof/Laws/Tracker.lean ====
section
/-!
SUPPORT. What one sample arrival can do to a channel at the Pedestal Tracker (R29, R30, R78).
-/

namespace Sys2Proof.Machine

/-- At a crossing that is not quiet a channel stays as it is. -/
theorem trackChan_notQuiet (c : ChanTrack) (slot : Option Slot) (dac : PerGain Nat) :
    trackChan c false slot dac = { track := c, dac := dac, stepped := false, conds := [] } := by
  cases slot <;> rfl

/-- Either no slot of the channel counts and it stays as it is, or the slot written counts and both gains take their codes. -/
theorem trackChan_cases (c : ChanTrack) (quiet : Bool) (slot : Option Slot) (dac : PerGain Nat) :
    trackChan c quiet slot dac = { track := c, dac := dac, stepped := false, conds := [] } ∨
      ∃ x, slot = some x ∧ slotCounts c quiet x = true ∧ trackChan c quiet slot dac = trackSlot c x dac := by
  cases slot with
  | none => exact .inl rfl
  | some x =>
    by_cases h : slotCounts c quiet x = true
    · exact .inr ⟨x, rfl, h, by simp [trackChan, h]⟩
    · exact .inl (by simp [trackChan, h])

/-- With the aligned flag clear the tracker counts no sample, whatever the quiet indication (R29). -/
theorem quietSample_unaligned {s : State} (h : s.timing.aligned = false) : quietSample s = false := by
  simp [quietSample, h]

theorem trackAt_unaligned {s : State} (h : s.timing.aligned = false) (x : Samples) (c : Chan) :
    trackAt s x c = { track := s.ped.chans[c], dac := s.front.dacs[c], stepped := false, conds := [] } := by
  rw [trackAt, quietSample_unaligned h, trackChan_notQuiet]

end Sys2Proof.Machine
end

