-- ==== Sys2Proof/WellFormed.lean ====
section
/-!
DEFINITION. When a command is well formed: a request's payload holds at most 240 bytes (R191), and the name of an unknown
command is none of the part's commands (R195). Every other operand is legal by its type.
-/

namespace Sys2Proof

/-- A request frame's length byte lies in 5..245, so a payload holds 0..240 bytes (R191). -/
def Request.wellFormed (r : Request) : Bool := decide (r.payload.length ≤ 240)

/-- The request a command carries, if it carries one. -/
def Instr.request : Instr → Option Request
  | .unknownCommand _ r => some r
  | .chan r => some r
  | .pipe r => some r
  | .frze r => some r
  | .thaw r => some r
  | .peek r => some r
  | .turn r => some r
  | .clks r => some r
  | .strt r => some r
  | .stop r => some r
  | .rset r => some r
  | .rule r => some r
  | .busy r => some r
  | .trks r => some r
  | .pedl r => some r
  | .trml r => some r
  | .trmr r => some r
  | .tren r => some r
  | .trst r => some r
  | .trms r => some r
  | .trex r => some r
  | .filt r => some r
  | .lclr r => some r
  | .lapp r => some r
  | .lins r => some r
  | .lrem r => some r
  | .lrep r => some r
  | .lrds r => some r
  | .lcom r => some r
  | .srci r => some r
  | .stlm r => some r
  | .injs r => some r
  | .inja r => some r
  | .injd r => some r
  | .injf r => some r
  | .ints r => some r
  | .intl r => some r
  | .intr r => some r
  | .intx r => some r
  | .cmap r => some r
  | .cclr r => some r
  | .cntr r => some r
  | .cond r => some r
  | .stat r => some r
  | .idnt r => some r
  | _ => none

/-- A command is well formed. -/
def Instr.wellFormed (i : Instr) : Bool :=
  (match i.request with
    | some r => r.wellFormed
    | none => true)
    && match i with
      | .unknownCommand name _ => !isCommandName name
      | _ => true

end Sys2Proof
end

