-- ==== Sys2Proof/Tests/Slice0.lean ====
section
/-!
SUPPORT. Tests of the model, each one step on a small state, with the results the manual's worked examples and rules give; and
for every statement with hypotheses a witness: a concrete state and operands that meet them together.
-/

namespace Sys2Proof.Tests

open Sys2Proof Sys2Proof.Machine

/-! ## States the tests start from -/

/-- The state a command leaves. -/
def after (c : Instr) (s : State) : State :=
  match exec c s with
  | .next t => t
  | .fault _ => s
  | .refused _ => s

/-- The state a step leaves. -/
def stepped (s : State) : State :=
  match step s with
  | .next t => t
  | .fault _ => s
  | .refused _ => s

/-- A request under tag 7. -/
def req (p : List Byte) : Request := { tag := 7, payload := p }

/-- The same two codes in every channel. -/
def flat (h l : Code) : Samples := Vector.replicate 16 ⟨h, l⟩

/-- STANDBY with link and clock LOCKED, L = 8, N = 3, and filter sets of length 3. -/
def ready : State :=
  { State.reset with
    pipe := { State.reset.pipe with latency := 8, window := 3 }
    timing := { State.reset.timing with link := .locked, aligned := true, counter := 100, serial := 1000, event := 5 }
    clk := { State.reset.clk with state := .locked, lockCount := 2048 }
    filt := { sets := Vector.replicate 8 { a := [1, 2, 3], b := [1, 2, 3] } } }

/-- In PRIMING, one written sample arrival short of L. -/
def priming : State :=
  { ready with
    acq := { state := .priming, startL := 8, startN := 3, startS := 1 }
    pipe := { ready.pipe with fill := 7 } }

/-- RUNNING with L samples written. -/
def running : State :=
  { ready with
    acq := { state := .running, startL := 8, startN := 3, startS := 1 }
    pipe := { ready.pipe with fill := 8, w := 8 } }

/-- SUSPENDED: a class 3 condition is latched and the throttle is on. -/
def suspended : State :=
  { running with
    acq := { running.acq with state := .suspended }
    aq := { running.aq with throttle := true }
    cond := { running.cond with
      recs := put running.cond.recs 3 { latch := true, count := 1, cls := .class3, first := none } } }

/-- DRAINING with a word in the buffer. -/
def draining : State :=
  { running with
    acq := { running.acq with state := .draining }
    tx := { running.tx with buffer := [1, 2, 3] } }

/-- Manual trim mode on channel 2, HG, in STANDBY. -/
def manualTrim : ManualTrim :=
  { chan := 2, gain := .hg, settle := 1, lastMean := 3210, valid := true, measuring := none }

/-- The same with a given manual-mode data. -/
def inMode (m : ManualTrim) : State := { ready with trim := { ready.trim with engine := .manual m } }

/-- A list entry of channel 4: RAW_BOTH, KEEP. -/
def entry : Entry :=
  { channel := 4, mode := .rawBoth, policy := .auto, suppression := .keep, threshold := 0, keepOnFlag := false,
    peakLo := 0, peakHi := 15, timeThreshold := 0 }

/-- A full record in slot 3. -/
def record : Record :=
  { event := 4210, crossing := 1736, refSerial := 0, unaligned := false, rule := false, gap := 0, kind := .full 3,
    pulse := none }

/-- The build of that record after some of its entries (section 8.10). -/
def build : Build :=
  { record := record, generation := 12, listNew := false, words := [], emitted := 0, suppressed := 0, position := 0,
    flags := 0 }

/-- A captured channel of three slots. -/
def chanSnap : ChanSnap :=
  { window := [Slot.cleared, Slot.cleared, Slot.cleared], held := false, stale := false, disabled := false,
    pedestal := ⟨3208, 3208⟩ }

/-- RUNNING with the record's build under way, two entries in the active list and the first in flight. -/
def building : State :=
  { running with
    aq := { running.aq with records := [record], snaps := put running.aq.snaps 3 (some (Vector.replicate 16 chanSnap)) }
    list := { running.list with active := [entry, entry], generation := 12 }
    builder := { state := .building build, inFlight := some { entry := entry, event := 4210, slot := 3 } } }

/-- RUNNING with the record's fragment READY. -/
def readyFragment : State :=
  { building with builder := { state := .ready { build with words := [7, 8], emitted := 1, position := 2, suppressed := 1 },
                               inFlight := none } }

/-! ## Well-formedness -/

set_option maxRecDepth 4000 in
theorem test_payload_240_wellFormed : (Instr.stat (req (List.replicate 240 0))).wellFormed = true := by decide
set_option maxRecDepth 4000 in
theorem test_payload_241_refused : (Instr.stat (req (List.replicate 241 0))).wellFormed = false := by decide
theorem test_known_name_no_unknownCommand : (Instr.unknownCommand 0x73746174#32 (req [])).wellFormed = false := by decide
theorem test_capitals_unknown : (Instr.unknownCommand 0x53544154#32 (req [])).wellFormed = true := by decide

/-! ## Frames and checks -/

set_option maxRecDepth 20000 in
/-- The check value of the CRC with this polynomial and initial value over the digits 1 to 9. -/
theorem test_crc16 : crc16 [0x31, 0x32, 0x33, 0x34, 0x35, 0x36, 0x37, 0x38, 0x39] = 0x29B1 := by decide

set_option maxRecDepth 20000 in
/-- Section 11.6: a good busy frame is executed at once. -/
theorem test_requestFrame :
    let t := after (.requestFrame (requestBytes { tag := 0x21, name := 0x62757379#32, payload := [10, 6] })) running
    t.aq.hi = 10 ∧ t.ctl.buffer = [] := by decide

set_option maxRecDepth 20000 in
/-- R192: a frame with a wrong check is discarded with CTL_CRC. -/
theorem test_requestFrame_badCheck :
    (after (.requestFrame [0x5B, 5, 0x21, 0x62, 0x75, 0x73, 0x79, 0, 0]) running).cond.recs[(15 : Fin 25)].latch = true := by
  decide

/-- R192: a timeout in FRAME latches CTL_TIMEOUT. -/
theorem test_interByteTimeout :
    (after .interByteTimeout (after (.requestFrame [0x5B, 5, 0x21]) running)).cond.recs[(17 : Fin 25)].count = 1 := by
  decide

/-- Section 11.6: busy hi 10, lo 6 under tag 0x21, throttle off. -/
theorem test_busy : (after (.busy { tag := 0x21, payload := [10, 6] }) running).aq.hi = 10 := by decide

/-- Section 11.6: hi 6, lo 6 is refused BADARG, length 3, no payload. -/
theorem test_busy_badArg :
    ((after (.busy { tag := 0x21, payload := [6, 6] }) running).ctl.sent.map (List.take 5)) = [[0x5D, 3, 0x21, 4, 0]] := by
  decide

/-- R195: an unknown name is answered UNKNOWN, code 2. -/
theorem test_unknownCommand :
    ((after (.unknownCommand 0x53544154#32 (req [1])) running).ctl.sent.map (List.take 4)) = [[0x5D, 3, 7, 2]] := by decide

/-- R198: the payload of idnt. -/
theorem test_idnt :
    ((after (.idnt (req [])) running).ctl.sent.map (List.take 22)) =
      [[0x5D, 20, 7, 0, 0, 0x16, 0x24, 1, 0, 16, 2, 0, 0, 32, 0, 16, 0, 32, 0, 8, 16, 0]] := by decide

/-- R197: stat in RUNNING, clock and link LOCKED, fill count 8. -/
theorem test_stat :
    ((after (.stat (req [])) running).ctl.sent.map (List.take 13)) = [[0x5D, 21, 7, 0, 0, 2, 2, 2, 0, 0, 0, 0, 8]] := by
  decide

/-! ## Timing link and clock -/

/-- Section 2.8, with a build under way. -/
def example28 : State :=
  { building with
    acq := { state := .running, startL := 128, startN := 7, startS := 2 }
    timing := { running.timing with serial := 7499999, counter := 2999, event := 41207 } }

/-- Section 2.8: the frame with ACCEPT, TURNMARK and EVCLEAR. -/
theorem test_timingFrame_three_commands :
    let t := after (.timingFrame 0xE1) example28
    t.timing.serial = 7500000 ∧ t.timing.counter = 0 ∧ t.timing.event = 1 ∧
      t.aq.records.getLast?.map (fun r => (r.event, r.crossing, r.refSerial)) = some (0, 2936, 7499936) := by decide

/-- Section 2.8: the same frame failing its check. -/
theorem test_timingFrame_failing :
    let t := after (.timingFrame 0xE0) example28
    t.timing.event = 41207 ∧ t.timing.counter = 0 ∧ t.timing.failCount = 1 ∧ t.cond.recs[(1 : Fin 25)].count = 1 := by
  decide

theorem test_linkLock :
    (after (.linkLock 0x0F) { ready with timing := { ready.timing with link := .seeking, runCount := 63 } }).timing.link =
      .locked := by decide

theorem test_linkLoss :
    let t := after (.linkLoss 0x00) { ready with timing := { ready.timing with failCount := 7 } }
    t.timing.link = .seeking ∧ t.timing.aligned = false ∧ t.cond.recs[(0 : Fin 25)].latch = true := by decide

/-- R24: a link that fails a frame in SEEKING and loses its clock seeks from the position that frame was taken at. -/
theorem test_candidate_after_clock_loss :
    let lost := after .crossingClockLoss (after (.timingFrame 0x00)
      { ready with timing := { ready.timing with link := .seeking, candidate := 3 } })
    (after (.timingFrame 0x0F) lost).timing.candidate = 3 := by decide

theorem test_lockAcquired :
    (after (.lockAcquired 0x0F) { ready with clk := { ready.clk with state := .acquiring, lockCount := 2047 } }).clk.state =
      .locked := by decide

theorem test_phaseSlip :
    let t := after .phaseSlip running
    t.acq.state = .priming ∧ t.pipe.fill = 0 ∧ t.clk.lockCount = 0 := by decide

theorem test_crossingClockLoss :
    let t := after .crossingClockLoss running
    t.timing.link = .noSignal ∧ t.clk.state = .unlocked ∧ t.timing.serial = 1000 := by decide

theorem test_turn :
    let t := after (.turn (req [0x0B, 0xB8, 0, 10, 0, 20])) ready
    t.timing.turnLength = 3000 ∧ t.timing.quietFrom = 10 ∧ t.timing.aligned = false := by decide

/-- R16: S = 2 raises an odd L. -/
theorem test_clks :
    let t := after (.clks (req [2, 5])) { ready with pipe := { ready.pipe with latency := 129 } }
    t.pipe.latency = 130 ∧ t.clk.state = .acquiring ∧ t.clk.phase = 5 := by decide

/-! ## Front End and pipeline -/

theorem test_chan :
    ((after (.chan (req [3, 0, 0x0F, 0xA0, 0x04, 0, 0x20, 0, 2, 7])) ready).front.recs[(3 : Chan)]).lgThreshold = 1024 := by
  decide

theorem test_chan_threshold_low_refused :
    ((after (.chan (req [3, 0, 0x03, 0xFF, 0x04, 0, 0x20, 0, 2, 7])) ready).ctl.sent.map (List.take 4)) =
      [[0x5D, 3, 7, 4]] := by decide

/-- R15's table: 2, 7 with S = 2 is applied as 8, 7, CLAMPED. -/
theorem test_pipe_clamped :
    let t := after (.pipe (req [0, 2, 7])) { ready with clk := { ready.clk with s := 2 } }
    t.pipe.latency = 8 ∧ t.ctl.sent.map (List.take 8) = [[0x5D, 6, 7, 1, 0, 0, 8, 7]] := by decide

/-- R15's table: 1000, 16 is applied as 480, 16. -/
theorem test_pipe_top : (after (.pipe (req [0x03, 0xE8, 16])) ready).pipe.latency = 480 := by decide

theorem test_frze : (after (.frze (req [0x80, 0x01])) running).pipe.chans[(15 : Chan)].frozen = true := by decide

theorem test_thaw_running_channel_untouched :
    (after (.thaw (req [0, 1])) { running with pipe := { running.pipe with
      chans := put running.pipe.chans 0 { running.pipe.chans[(0 : Chan)] with refill := 9 } } }).pipe.chans[(0 : Chan)].refill
      = 9 := by decide

theorem test_peek_unfrozen_refused :
    ((after (.peek (req [0, 0, 0, 1])) running).ctl.sent.map (List.take 4)) = [[0x5D, 3, 7, 5]] := by decide

theorem test_sampleArrival_slot :
    let t := after (.sampleArrival (flat 4095 7)) running
    t.pipe.w = 9 ∧ (ringRead t.pipe.chans[(4 : Chan)].ring 8).clipH = true ∧
      (ringRead t.pipe.chans[(4 : Chan)].ring 8).lg = 7 := by decide

theorem test_primingComplete : (after (.primingComplete (flat 200 200)) priming).acq.state = .running := by decide

/-! ## Accepts -/

/-- R56: the first accept in W crossings of the oldest of K is a violation. -/
theorem test_rule_violation :
    (ruleCheck 9 { running with aq := { running.aq with ruleK := 1, ruleW := 6, history := [995] } }).cond.counters.ruleV = 1 :=
  by decide

theorem test_rule :
    let t := after (.rule (req [8, 0, 100, 1])) running
    t.aq.ruleK = 8 ∧ t.aq.ruleW = 100 ∧ t.aq.degrade = true := by decide

/-- R59: an accept in STANDBY becomes a gap. -/
theorem test_accept_gap : (after (.timingFrame 0x87) ready).aq.gap = 1 := by decide

/-- R62: the next record carries the gap count. -/
theorem test_accept_carries_gap :
    (acceptArrival 5 { building with aq := { building.aq with gap := 2 } }).aq.records.map Record.gap = [0, 2] := by decide

/-! ## Acquisition -/

theorem test_powerOn : (after .powerOn suspended).acq.state = .standby := by decide
theorem test_strt : (after (.strt (req [])) ready).acq = { state := .priming, startL := 8, startN := 3, startS := 1 } := by
  decide
theorem test_strt_noLock :
    ((after (.strt (req [])) { ready with clk := { ready.clk with state := .acquiring } }).ctl.sent.map (List.take 7)) =
      [[0x5D, 5, 7, 5, 0, 1, 0]] := by decide
theorem test_stop_empty : (after (.stop (req [])) running).acq.state = .standby := by decide
theorem test_stop_draining : (after (.stop (req [])) building).acq.state = .draining := by decide
theorem test_rset_waits_for_busyOff :
    let t := after (.rset (req [])) suspended
    t.acq.state = .standby ∧ t.tx.waitingFrame = some .busyOff ∧ t.ctl.executing = .rset 7 true := by decide
theorem test_rsetComplete :
    (after .rsetComplete { ready with ctl := { ready.ctl with executing := .rset 7 false } }).ctl.sent.length = 1 := by
  decide
theorem test_drainComplete :
    (after .drainComplete { draining with tx := { draining.tx with buffer := [] } }).acq.state = .standby := by decide

/-! ## Pedestals and trims -/

theorem test_trks :
    ((after (.trks (req [0, 4, 1, 1, 0, 200, 0, 201, 8, 4, 0])) ready).ped.chans[(2 : Chan)]).target = ⟨200, 201⟩ := by decide

/-- R77: 65521 is clamped to 65520 with PED_RANGE. -/
theorem test_pedl_clamped :
    let t := after (.pedl (req [0, 4, 2, 0xFF, 0xF1])) ready
    (t.ped.chans[(2 : Chan)]).gains.lg.p = 65520 ∧ t.cond.recs[(11 : Fin 25)].latch = true := by decide

/-- R80 and R1: a difference of exactly half of 2^k downwards leaves P, upwards moves it by one. -/
theorem test_pedestal_rounding : updatePed 3 3200 3204 = (3201, false) ∧ updatePed 3 3200 3196 = (3200, false) := by decide

theorem test_blockComplete :
    let s := { running with
      timing := { running.timing with quiet := true }
      ped := { chans := put running.ped.chans 2 { running.ped.chans[(2 : Chan)] with
        blockExp := 4, updateExp := 0, gains := ⟨{ GainTrack.default with count := 15, sum := 3015 }, GainTrack.default⟩ } } }
    ((after (.blockComplete (flat 201 200)) s).ped.chans[(2 : Chan)]).gains.hg.p = 3216 := by decide

theorem test_trml :
    let t := after (.trml (req [0, 4, 0])) ready
    (t.front.dacs[(2 : Chan)]).hg = 128 ∧ t.trim.engine.code = 1 := by decide
theorem test_trmr_empty_mask :
    ((after (.trmr (req [0, 0])) ready).ctl.sent.map (List.take 6)) = [[0x5D, 4, 7, 0, 0, 0]] := by decide

/-- R86: in the first round a mean at 16 times the target keeps bit 7. -/
theorem test_trimRound :
    roundOf { whole := true, value := 0, target := 200, hysteresis := 8, meanV := 0, sum := 256 * 200 } 0 3200 32
        { first := true, status := .never } =
      { search := some { whole := true, value := 128, target := 200, hysteresis := 8, meanV := 0, sum := 0 }, dac := 192,
        p := 3200, sigma := 32, info := { first := true, status := .never }, conds := [] } := by decide

/-- Section 5.4, R77: P stays at the end of the first finishing round, and becomes its mean at the finish. -/
theorem test_trimFinish :
    (roundOf { whole := true, value := 62, target := 200, hysteresis := 8, meanV := 0, sum := 256 * 199 } 8 3200 32
        { first := true, status := .never }).p = 3200 ∧
      (roundOf { whole := true, value := 62, target := 200, hysteresis := 8, meanV := 3184, sum := 256 * 215 } 9 3000 32
        { first := true, status := .never }).p = 3184 := by decide

theorem test_trimRoundComplete :
    let t : LongTrim :=
      { round := 0, arrivals := 319,
        searches := put (Vector.replicate 16 ⟨none, none⟩) 2
          ⟨some { whole := true, value := 0, target := 200, hysteresis := 8, meanV := 0, sum := 255 * 201 }, none⟩ }
    ((after (.trimRoundComplete (flat 201 0)) { ready with trim := { ready.trim with engine := .long t } }).front.dacs[(2 : Chan)]).hg
      = 64 := by decide

theorem test_tren : (after (.tren (req [2, 1])) ready).trim.engine.code = 2 := by decide
theorem test_trst : ((after (.trst (req [77])) (inMode manualTrim)).front.dacs[(2 : Chan)]).hg = 77 := by decide
theorem test_trms : (after (.trms (req [])) (inMode manualTrim)).ctl.executing = .trms 7 := by decide
theorem test_trex : ((after (.trex (req [])) (inMode manualTrim)).ped.chans[(2 : Chan)]).gains.hg.p = 3210 := by decide
theorem test_manualSettleExpiry :
    (after (.manualSettleExpiry (flat 0 0)) (inMode manualTrim)).trim.engine = .manual { manualTrim with settle := 0 } := by
  decide
theorem test_trmsComplete :
    let s := inMode { manualTrim with settle := 0, measuring := some { count := 255, sum := 255 * 200 } }
    (after (.trmsComplete (flat 200 0)) { s with ctl := { s.ctl with executing := .trms 7 } }).ctl.sent.length = 1 := by
  decide

/-! ## Reconstruction: section 6.13 to 6.16 -/

/-- A slot of given codes and no flag. -/
def slot (h l : Code) : Slot := { Slot.cleared with hg := h, lg := l }

/-- The filter sets of section 6.13, in sets 0 and 1. -/
def sets613 : Vector FilterSet 8 :=
  Vector.replicate 8
    { a := [BitVec.ofInt 16 (-2048), 2048, 12288, 8192, BitVec.ofInt 16 (-4096)],
      b := [1024, BitVec.ofInt 16 (-4096), BitVec.ofInt 16 (-2048), 4096, 1024] }

/-- The entry of section 6.13. -/
def entry613 : Entry :=
  { channel := 11, mode := .recon, policy := .auto, suppression := .above, threshold := 200, keepOnFlag := false,
    peakLo := 1, peakHi := 3, timeThreshold := 400 }

/-- The flags of an entry with none set. -/
def noFlags : EntryFlags :=
  { sat := false, ovf := false, clamp := false, noTime := false, tClamp := false, peakOut := false, held := false,
    stale := false, disabled := false, trimStep := false, inj := false, kept := false, forced := false, gainLg := false }

/-- The capture of section 6.13. -/
def snap613 : ChanSnap :=
  { chanSnap with window := [slot 210 0, slot 260 0, slot 1010 0, slot 760 0, slot 330 0] }

/-- Section 6.13: amplitude 3443, peak 2, time 10, peak code 1010; head word channel 11, RECON, length 3, no flag. -/
theorem test_high_gain_pulse :
    reconstruct entry613 snap613 ChanRec.default sets613 =
      { flags := noFlags, words := some [0xB2300000, 0x000D7302, 0x000A03F2] } := by decide

/-- Section 6.14: SAT and gain-used LG, amplitude 110,176. -/
theorem test_low_gain_pulse :
    reconstruct entry613 { chanSnap with window :=
        [slot 3100 210, slot 4095 260, slot 4095 1010, slot 4095 760, slot 4095 330] } ChanRec.default sets613 =
      { flags := { noFlags with sat := true, gainLg := true }, words := some [0xB2308004, 0x01AE6002, 0x000A03F2] } := by
  decide

/-- Section 6.15: a stale channel's small pulse, kept by keep-on-flag. -/
theorem test_kept_by_flag :
    reconstruct { entry613 with channel := 2, threshold := 400, keepOnFlag := true, timeThreshold := 200 }
        { chanSnap with stale := true, window := [slot 201 0, slot 201 0, slot 205 0, slot 203 0, slot 200 0] }
        ChanRec.default sets613 =
      { flags := { noFlags with noTime := true, stale := true, kept := true },
        words := some [0x22301110, 0x00001302, 0x000000CD] } := by decide

/-- Section 6.16: the time is clamped to 32,767. -/
theorem test_time_clamp : rawTime 1000 200000 = 51200 ∧ time 1000 200000 = 32767 := by decide

theorem test_filt :
    (after (.filt (req [1, 3, 0, 1, 0, 2, 0, 3, 0x80, 0, 0, 5, 0, 6])) ready).filt.sets[(1 : Fin 8)] =
      { a := [1, 2, 3], b := [0x8000, 5, 6] } := by decide

/-! ## Lists -/

theorem test_lclr : (after (.lclr (req [])) { ready with list := { ready.list with staged := [entry] } }).list.staged = [] := by
  decide
theorem test_lapp : (after (.lapp (req [0x44, 0, 0xF0, 0, 0, 0, 0, 0, 0])) ready).list.staged = [entry] := by decide
theorem test_lapp_badPeaks_refused :
    ((after (.lapp (req [0x44, 0, 0x12, 0, 0, 0, 0, 0, 0])) ready).ctl.sent.map (List.take 4)) = [[0x5D, 3, 7, 4]] := by decide
theorem test_lins_first :
    ((after (.lins (req [0, 0x45, 0, 0xF0, 0, 0, 0, 0, 0, 0]))
      { ready with list := { ready.list with staged := [entry] } }).list.staged.map Entry.channel) = [5, 4] := by decide
theorem test_lrem : (after (.lrem (req [0])) { ready with list := { ready.list with staged := [entry] } }).list.staged = [] := by
  decide
theorem test_lrep :
    ((after (.lrep (req [0, 0x45, 0, 0xF0, 0, 0, 0, 0, 0, 0]))
      { ready with list := { ready.list with staged := [entry] } }).list.staged.map Entry.channel) = [5] := by decide
theorem test_lrds :
    ((after (.lrds (req [1, 0, 1])) building).ctl.sent.map (List.take 20)) =
      [[0x5D, 18, 7, 0, 0, 1, 2, 12, 0, 0, 1, 0x44, 0, 0xF0, 0, 0, 0, 0, 0, 0]] := by decide
theorem test_lcom_pending : (after (.lcom (req [])) building).list.pending = true := by decide

/-! ## Fragments and the readout link: sections 8.10 and 8.11 -/

theorem test_recordStart :
    (after .recordStart { building with builder := { state := .idle, inFlight := none } }).builder = building.builder := by
  decide
/-- R122, R203: head word with NOTIME (the weighted sum is negative), then two raw words for each gain. -/
theorem test_entryCompletion_words :
    (after .entryCompletion building).builder.state =
      .building { build with words := [0x48501000, 0, 0x00009000, 0, 0x00009000], emitted := 1, position := 1,
                             flags := 0x1000 } := by decide

/-- The header of section 8.10's fragment, with 12 words of entries. -/
theorem test_headerWords :
    headerWords { build with words := List.replicate 12 0, emitted := 2, suppressed := 1, flags := 0x0040 } 2 17 =
      [0xF7110011, 0x01001072, 0x20C006C8, 0x00000201] := by decide

theorem test_fragmentAppend :
    let t := after .fragmentAppend readyFragment
    t.tx.buffer.length = 7 ∧ t.aq.records = [] ∧ t.cond.counters.words = 7 := by decide
theorem test_frameBoundary :
    let t := after .frameBoundary { draining with tx := { draining.tx with credits := 2 } }
    t.tx.begun = some 3 ∧ t.tx.credits = 1 ∧ t.tx.sent = [0xB5000003] := by decide
theorem test_blockCompletion :
    (after .blockCompletion { draining with tx := { draining.tx with begun := some 3 } }).acq.state = .standby := by decide

/-- Section 8.11, steps 10, 12 and 13. -/
theorem test_creditFrame :
    (after (.creditFrame 0xA300000F) draining).tx.credits = 15 ∧
      (after (.creditFrame 0xA300005A) { draining with tx := { draining.tx with credits := 11 } }).cond.recs[(14 : Fin 25)].latch
        = true ∧
      (after (.creditFrame 0xA300005B) draining).cond.recs[(13 : Fin 25)].latch = true := by decide
theorem test_stallTimeout :
    (after (.stallTimeout 0x0F) { draining with tx := { draining.tx with stallLimit := 1, stallTimer := 255 } }).cond.recs[(12 : Fin 25)].latch
      = true := by decide
theorem test_srci : (after (.srci (req [17])) running).tx.sourceId = 17 := by decide
theorem test_stlm : (after (.stlm (req [0, 1])) { running with tx := { running.tx with stallTimer := 400 } }).tx.stallTimer = 256 := by
  decide

/-! ## Charge injection and the slow integrator -/

/-- RUNNING with the injector ARMED. -/
def armed : State := { running with inj := { running.inj with state := .armed, mask := 0x8001, amplitude := 512, delay := 2 } }

theorem test_injs :
    (after (.injs (req [0x80, 1, 2, 0, 5, 3, 40, 1])) running).inj.settings =
      { mask := 0x8001, amplitude := 512, delay := 5, count := 3, spacing := 40, mode := .repeating } := by decide
theorem test_inja : (after (.inja (req [])) running).inj.state = .armed := by decide
theorem test_injd : (after (.injd (req [])) armed).inj.state = .disarmed := by decide
theorem test_injf : (after (.injf (req [])) armed).inj.state = .delaying 1003 := by decide
theorem test_delayExpiry :
    let t := after (.delayExpiry 0x0F) { armed with inj := { armed.inj with state := .delaying 1001 } }
    (t.pipe.chans[(15 : Chan)]).injCount = 4 ∧ (t.pipe.chans[(14 : Chan)]).injCount = 0 ∧ t.inj.state = .disarmed ∧
      t.inj.pending = [{ serial := 1001, train := 0, index := 0 }] := by decide
theorem test_pulseFiring :
    (after (.pulseFiring 0x0F) { armed with inj := { armed.inj with state := .firing 1001 1, count := 3, spacing := 40 } }).inj.state =
      .firing 1041 2 := by decide
theorem test_pendingPulseExpiry :
    let t := after (.pendingPulseExpiry 0x0F) { running with inj := { running.inj with
      pending := [{ serial := 992, train := 0, index := 0 }, { serial := 993, train := 0, index := 1 }] } }
    t.inj.pending = [{ serial := 993, train := 0, index := 1 }] ∧ t.cond.counters.missed = 1 := by decide

theorem test_ints : (after (.ints (req [0, 2, 1, 0, 16])) running).integ.scan = .settle 0 64 := by decide
theorem test_intl : (after (.intl (req [1, 0, 0])) running).integ.limit = 65536 := by decide
theorem test_intr :
    (after (.intr (req [0, 1])) { running with integ := { running.integ with
      readings := put running.integ.readings 0 { Reading.default with status := .new } } }).integ.readings[(0 : Chan)].status =
      .read := by decide
theorem test_intx : (after (.intx (req [])) { running with integ := { running.integ with scan := .gate 3 9 } }).integ.scan = .idle := by
  decide
theorem test_settleExpiry :
    (after (.settleExpiry 0x0F) { running with integ := { running.integ with scan := .settle 3 1 } }).integ.scan = .gate 3 4096 := by
  decide
theorem test_converterPulse :
    (after (.converterPulse 3) { running with integ := { running.integ with scan := .gate 3 9, counter := 16777215 } }).integ.counter =
      16777215 := by decide
theorem test_gateExpiry :
    let t := after (.gateExpiry 0x0F) { running with integ := { running.integ with scan := .gate 3 1, counter := 5, limit := 4 } }
    (t.integ.readings[(3 : Chan)]).count = 5 ∧ t.integ.scan = .settle 4 64 ∧ t.cond.recs[(22 : Fin 25)].latch = true := by
  decide

/-! ## Conditions -/

/-- R185: mapping a latched condition to class 3 suspends a run. -/
theorem test_cmap :
    (after (.cmap (req [7, 3])) (occur .lgOvf (some 9) running)).acq.state = .suspended := by decide
theorem test_cclr :
    let t := after (.cclr (req [0, 0, 0, 8])) suspended
    t.acq.state = .running ∧ t.aq.throttle = false ∧ t.tx.waitingFrame = some .busyOff := by decide
theorem test_cclr_bit25_refused :
    ((after (.cclr (req [2, 0, 0, 0])) running).ctl.sent.map (List.take 4)) = [[0x5D, 3, 7, 4]] := by decide
theorem test_cntr_clears :
    (after (.cntr (req [1])) { building with cond := { building.cond with counters := { Counters.zero with missed := 3 } } }).aq.recordMark
      = 1 := by decide
theorem test_cond_first_event :
    ((after (.cond (req [7])) (occur .lgOvf (some 9) running)).ctl.sent.map (List.take 18)) =
      [[0x5D, 16, 7, 0, 2, 7, 1, 0, 1, 1, 0, 0, 9, 1, 0, 0, 0, 0x80]] := by decide

/-! ## The queue and the frames held -/

theorem test_step_takes_front :
    let t := stepped { running with pending := [.srci (req [9]), .srci (req [8])] }
    t.tx.sourceId = 9 ∧ t.pending = [.srci (req [8])] := by decide

/-- A frame that may wait in the receive buffer: srci of 9. -/
def heldFrame : Frame := { tag := 1, name := 0x73726369#32, payload := [9] }

/-- A part whose Control Port is held by something, with some frames waiting. -/
def portAt (x : Execution) (held : List Frame) (s : State) : State := { s with ctl := { s.ctl with executing := x, buffer := held } }

/-- R194: the frame held behind a trms stays held when the trms is answered, and leaves the buffer when the reply's last byte has
gone. -/
theorem test_held_frame_waits_for_the_reply :
    let s := inMode { manualTrim with settle := 0, measuring := some { count := 255, sum := 255 * 200 } }
    (after (.trmsComplete (flat 200 0)) (portAt (.trms 7) [heldFrame] s)).ctl.buffer = [heldFrame] ∧
      (after .phaseSlip (portAt (.sending 0) [heldFrame] ready)).tx.sourceId = 9 ∧
      (stepped (portAt (.sending 5) [heldFrame] ready)).tx.sourceId = 9 := by decide

/-- R193, R194: while a reply is being sent two frames can wait, and a third is lost. -/
theorem test_third_frame_lost_while_sending :
    let s := portAt (.sending 3) [] running
    let t := after (.srci (req [3])) (after (.srci (req [2])) (after (.srci (req [1])) s))
    t.ctl.buffer.length = 2 ∧ t.tx.sourceId = 0 ∧ t.cond.recs[(16 : Fin 25)].latch = true := by decide

/-- R187: the reply of a cclr, before and after an event of the same moment that latches TL_CHECK; and cond, held behind it, is not
executed before the reply is formed. -/
theorem test_cclr_reply :
    (after .drainComplete (portAt (.cclr 7 0) [] running)).ctl.sent.map (List.take 9) = [[0x5D, 7, 7, 0, 0, 0, 0, 0, 0]] ∧
      (let t := after (.timingFrame 0) (portAt (.cclr 7 1) [{ heldFrame with name := 0x636F6E64#32, payload := [1] }] running)
       t.ctl.sent = [] ∧ t.ctl.executing = .cclr 7 0 ∧
         (stepped t).ctl.sent.map (List.take 9) = [[0x5D, 7, 7, 0, 1, 0, 0, 0, 2]]) := by decide

/-- R49: the rset is answered in the event that completes the block begun. -/
theorem test_rset_answered_at_blockCompletion :
    let t := after .blockCompletion { ready with
      tx := { ready.tx with buffer := [1, 2], begun := some 2 }, ctl := { ready.ctl with executing := .rset 7 false } }
    t.ctl.buffer = [] ∧ t.ctl.sent.length = 1 := by decide

/-! ## Witnesses: states and operands that meet the hypotheses of the statements -/

theorem takes_ready : TakesRequests ready := ⟨⟨rfl, rfl⟩, rfl⟩
theorem takes_running : TakesRequests running := ⟨⟨rfl, rfl⟩, rfl⟩
/-- At these states, and at any other with an idle port, the port does nothing before an event: a witness for s is one for s0. -/
theorem before_idle {s : State} (h : s.ctl = ready.ctl) : beforeEvent s = s := by
  obtain ⟨acq, front, pipe, timing, clk, aq, ped, trim, filt, list, builder, tx, inj, integ, cond, ctl, fi, pd⟩ := s
  subst h
  rfl

/-- The invariants' hypotheses: a part that is building, a part in suspension, a part that drains, and a step of each. -/
theorem witness_StepKeepsSuspendRule :
    SuspendRule suspended ∧ SuspendRule building ∧ ∃ t, step { suspended with pending := [.phaseSlip] } = .next t :=
  ⟨by unfold SuspendRule; decide, by unfold SuspendRule; decide, _, rfl⟩

theorem witness_StepKeepsRingsCanonical :
    RingsCanonical (after (.sampleArrival (flat 4095 7)) running) ∧ ∃ t, step { running with pending := [.frameBoundary] } = .next t :=
  ⟨by unfold RingsCanonical; decide, _, rfl⟩

theorem witness_StepKeepsRunSettled :
    RunSettled building ∧ RunSettled ready ∧ TrimInStandby building ∧ TrimInStandby (inMode manualTrim) :=
  ⟨by unfold RunSettled; decide, by unfold RunSettled; decide, fun _ => rfl, fun h => absurd rfl h⟩

theorem witness_StepTakesFrontCommand :
    ready.pending = [] ∧ PortQuiet ready ∧ (portAt (.cclr 7 2) [] ready).ctl.executing = .cclr 7 2 ∧
      (portAt (.sending 0) [] ready).ctl.buffer = [] ∧ (portAt (.sending 2) [heldFrame] ready).ctl.buffer = heldFrame :: [] ∧
      (∃ u, exec (commandOf heldFrame) ready = .next u) ∧ ∃ t, step (portAt (.sending 2) [heldFrame] ready) = .next t :=
  ⟨rfl, rfl, rfl, rfl, rfl, ⟨_, rfl⟩, _, rfl⟩

theorem witness_StepKeepsBalanceAndCapacity :
    AcceptsBalance building ∧ WithinCapacity building ∧
      WithinCapacity { draining with tx := { draining.tx with buffer := List.replicate 4096 0, credits := 15 } } :=
  ⟨by unfold AcceptsBalance; decide, by unfold WithinCapacity; decide, by
    refine ⟨by decide, by decide, by decide, by decide, ?_, by decide, by decide, by decide⟩
    exact le_of_eq (List.length_replicate ..)⟩

theorem witness_StepKeepsSlotsHeld : SlotsHeld building ∧ building.aq.snaps[(3 : Fin 16)].isSome = true :=
  ⟨by unfold SlotsHeld; decide, by decide⟩

theorem witness_StepKeepsFillAndThrottle : FillBounded suspended ∧ SuspendedThrottled suspended :=
  ⟨by unfold FillBounded; decide, by unfold SuspendedThrottled; decide⟩

/-- A READY fragment before a buffer of 4090 words, as in section 8.10. -/
theorem settled_full (l : List LinkWord) (h : l.length = 4090) :
    BuilderSettled { readyFragment with tx := { readyFragment.tx with buffer := l } } := by
  simp [BuilderSettled, fits, readyFragment, build, Build.length, h]

theorem witness_StepKeepsBuilderSettled :
    (BuilderSettled building ∧ BuildCounted building) ∧ (BuilderSettled ready ∧ BuildCounted ready) ∧
      (∃ s b, s.builder.state = .ready b ∧ BuilderSettled s ∧ BuildCounted s) ∧ PortSettled ready ∧
      PortSettled { ready with ctl := { ready.ctl with executing := .trms 7, buffer := [heldFrame] } } :=
  ⟨⟨rfl, rfl⟩, ⟨⟨rfl, rfl⟩, trivial⟩, ⟨_, _, rfl, settled_full _ (List.length_replicate (a := 0)), rfl⟩, ⟨rfl, fun _ => rfl⟩,
    rfl, by decide⟩

theorem witness_StepKeepsStandbyAndDraining :
    (StandbyEmpty ready ∧ DrainTested ready) ∧ StandbyEmpty draining ∧ DrainTested draining :=
  ⟨⟨by unfold StandbyEmpty; decide, by unfold DrainTested; decide⟩, by unfold StandbyEmpty; decide,
    by unfold DrainTested; decide⟩

/-- A port in each of the states the clauses name, with none, one and two frames waiting. -/
theorem witness_HeldRequestsWaitAndExecute :
    (∀ n ≤ 2, PortQuiet (portAt (.trms 7) (List.replicate n heldFrame) ready) ∧
      (beforeEvent (portAt (.trms 7) (List.replicate n heldFrame) ready)).ctl.buffer.length = n) ∧
      (portAt (.sending 1) [heldFrame] ready).ctl.executing = .sending (0 + 1) ∧
      ((portAt (.sending 0) [] ready).ctl.executing = .sending 0 ∧ (portAt (.sending 0) [] ready).ctl.buffer = []) ∧
      ((portAt (.sending 0) [heldFrame, heldFrame] ready).ctl.buffer = heldFrame :: [heldFrame] ∧
        ∃ u, exec (commandOf heldFrame) ready = .next u) ∧
      (portAt (.cclr 7 1) [] ready).ctl.executing = .cclr 7 (0 + 1) ∧ (portAt (.cclr 7 0) [] ready).ctl.executing = .cclr 7 0 ∧
      (beforeEvent ready).ctl.executing = .none ∧ (beforeEvent (portAt (.sending 1) [] ready)).ctl.executing ≠ .none :=
  ⟨by
    intro n hn
    have h : n = 0 ∨ n = 1 ∨ n = 2 := by omega
    rcases h with rfl | rfl | rfl <;> exact ⟨trivial, rfl⟩,
    rfl, ⟨rfl, rfl⟩, ⟨rfl, _, rfl⟩, rfl, rfl, rfl, by decide⟩

/-- STANDBY after an rset whose block is still being sent, with some frames held. -/
def resetting (awaits : Bool) (held : List Frame) : State :=
  { ready with
    tx := { ready.tx with buffer := [1, 2], begun := some 2, waitingFrame := if awaits then some .busyOff else none }
    ctl := { ready.ctl with executing := .rset 7 awaits, buffer := held } }

theorem witness_RefusedByName :
    PortIdle (inMode manualTrim) ∧ inManual (inMode manualTrim) = true ∧ isCommandName heldFrame.name = true ∧
      heldFrame.name ∉ manualNames ∧ isCommandName 0x53544154#32 = false :=
  ⟨⟨rfl, rfl⟩, rfl, by decide, by decide, by decide⟩

theorem witness_ReceiverTakesFrames :
    (List.replicate 240 (0 : Byte)).length ≤ 240 ∧ ready.ctl.receiver = none ∧ PortIdle ready ∧
      (beforeEvent (resetting false [])).ctl.executing ≠ .none ∧ (beforeEvent (portAt (.sending 1) [] ready)).ctl.executing ≠ .none ∧
      (∀ b ∈ ([4, 246] : List Byte), b.toNat < 5 ∨ 245 < b.toNat) ∧
      (∃ t, exec (.requestFrame [0x5B, 5, 1]) ready = .next t) ∧
      ({ ready with ctl := { ready.ctl with receiver := some [] } } : State).ctl.receiver = some [] :=
  ⟨le_of_eq (List.length_replicate ..), rfl, ⟨rfl, rfl⟩, by decide, by decide, by decide, ⟨_, rfl⟩, rfl⟩

set_option maxRecDepth 20000 in
/-- A frame with a wrong check and no start byte after its first. -/
theorem witness_ReceiverTakesFrames_badCheck :
    let body := u8 (5 + heldFrame.payload.length) ++ [heldFrame.tag] ++ u32 heldFrame.name.toNat ++ heldFrame.payload
    [0, 0] ≠ crcBytes body ∧ 0x5B#8 ∉ body ++ [0, 0] := by decide

theorem witness_SampleArrivalWritesRings :
    (RingsCanonical running ∧ beforeEvent running = running ∧ running.clk.state = .locked ∧ running.trim.engine = .idle ∧
        running.acq.state = .running) ∧
      beforeEvent ready = ready ∧ ready.clk.state = .locked ∧ ready.trim.engine = .idle ∧ ready.acq.state = .standby :=
  ⟨⟨by unfold RingsCanonical; decide, rfl, rfl, rfl, rfl⟩, rfl, rfl, rfl, rfl⟩

theorem witness_PrimingCompletes :
    SuspendRule priming ∧ TrimInStandby priming ∧ beforeEvent priming = priming ∧ priming.acq.state = .priming ∧ priming.clk.state = .locked ∧ priming.pipe.fill < 512 ∧
      priming.pipe.fill + 1 = priming.acq.startL :=
  ⟨by unfold SuspendRule; decide, fun _ => rfl, rfl, rfl, rfl, by decide, rfl⟩

/-- A channel one counted sample short of a block of 64. -/
def nearBlock : State :=
  { running with
    timing := { running.timing with quiet := true }
    ped := { chans := put running.ped.chans 2 { running.ped.chans[(2 : Chan)] with
      gains := ⟨{ GainTrack.default with count := 63, sum := 12600 }, { GainTrack.default with count := 63, blank := true }⟩ } } }

/-- R29: after a turn write the tracker counts no sample, though its crossing was quiet. -/
theorem witness_SampleArrivalWritesRings_unaligned :
    let s := { nearBlock with timing := { nearBlock.timing with aligned := false } }
    RingsCanonical s ∧ s.clk.state = .locked ∧ s.trim.engine = .idle ∧ s.acq.state = .running ∧ s.timing.aligned = false ∧
      (after (.sampleArrival (flat 200 200)) s).ped = s.ped :=
  ⟨by unfold RingsCanonical; decide, rfl, rfl, rfl, rfl, by decide⟩

theorem witness_BlocksMovePedestals :
    SampleCounts (flat 200 200) nearBlock 2 ∧ beforeEvent nearBlock = nearBlock ∧ nearBlock.trim.engine = .idle ∧
      nearBlock.ped.chans[(2 : Chan)].autoTrim = false ∧
      2 ^ nearBlock.ped.chans[(2 : Chan)].blockExp = (nearBlock.ped.chans[(2 : Chan)].gains.get .hg).count + 1 :=
  ⟨by unfold SampleCounts; decide, rfl, rfl, rfl, rfl⟩

/-- The same channel with auto-trim on, k = 0 and T = 200, h = 8, its HG one sample short of a block of 64 with a given DAC. -/
def trimmed (sum : Nat) (dac : Nat) (blank : Bool) : State :=
  { nearBlock with
    front := { nearBlock.front with dacs := put nearBlock.front.dacs 2 ⟨dac, 128⟩ }
    ped := { chans := put nearBlock.ped.chans 2 { nearBlock.ped.chans[(2 : Chan)] with
      autoTrim := true, updateExp := 0, gains := ⟨{ GainTrack.default with count := 63, sum := sum, blank := blank },
        { GainTrack.default with count := 63, sum := 12600 }⟩ } } }

/-- P at both ends of the band, 3328 and 3072, and one sixteenth-code beyond, 3329 and 3071, at the ends of the DAC. -/
theorem witness_BlocksMovePedestals_autoTrim :
    (∀ x ∈ [(13112, 3328), (13116, 3329), (12088, 3072), (12084, 3071)],
      (clampTo 0 65520 ((3200 : Int) + roundBy 0 (((roundBy 6 (16 * ((x.1 + 200 : Nat) : Int))).toNat : Int) - 3200))).toNat = x.2) ∧
      ∀ dac ∈ [0, 1, 254, 255], ∀ blank ∈ [true, false], SampleCounts (flat 200 200) (trimmed 13116 dac blank) 2 ∧
        (trimmed 13116 dac blank).front.dacs[(2 : Chan)].get .hg = dac ∧
        (trimmed 13116 dac blank).ped.chans[(2 : Chan)].autoTrim = true ∧
        2 ^ (trimmed 13116 dac blank).ped.chans[(2 : Chan)].blockExp =
          ((trimmed 13116 dac blank).ped.chans[(2 : Chan)].gains.get .hg).count + 1 := by
  unfold SampleCounts; decide

/-- R82: one step of the DAC on either side, with P moved by σ and the TRIMSTEP count set; none at its end. -/
theorem test_blockComplete_autoTrim :
    let t := after (.blockComplete (flat 200 200)) (trimmed 13116 1 false)
    let u := after (.blockComplete (flat 200 200)) (trimmed 12084 255 false)
    (t.front.dacs[(2 : Chan)].hg = 0 ∧ t.ped.chans[(2 : Chan)].gains.hg.p = 3297 ∧
        t.pipe.chans[(2 : Chan)].trimStepCount = 16) ∧
      u.front.dacs[(2 : Chan)].hg = 255 ∧ u.ped.chans[(2 : Chan)].gains.hg.p = 3071 ∧ u.cond.recs[(8 : Fin 25)].latch = true := by
  decide

/-- A clamp at an update, which needs a sum that no 64 codes make, and one at a step up, which needs a target above the codes. -/
theorem witness_BlocksMovePedestals_pedRange :
    (clampTo 0 65520 ((3200 : Int) + roundBy 0 (((roundBy 6 (16 * ((300000 : Nat) : Int))).toNat : Int) - 3200)) = 65520 ∧
        65520 < (3200 : Int) + roundBy 0 (((roundBy 6 (16 * ((300000 : Nat) : Int))).toNat : Int) - 3200)) ∧
      (after (.blockComplete (flat 200 200)) (trimmed 299800 0 false)).cond.recs[(11 : Fin 25)].latch = true ∧
      Cond.pedRange ∈ (blockComplete { ChanTrack.default with autoTrim := true, updateExp := 0, blockExp := 4 } 5000 65510
        { GainTrack.default with sigma := 255 } 0).conds := by decide

/-- The bounds of the short trim check with T = 200, h = 8 and blocks of 16: means 3329, 3328, 3072 and 3071. -/
theorem witness_BlocksMovePedestals_trim :
    ∀ sum ∈ [3329, 3328, 3072, 3071],
      ({ ChanTrack.default with autoTrim := true, updateExp := 0, blockExp := 4 } : ChanTrack).autoTrim = true ∧
        sum * 16 + 2 ^ 4 ≤ 65520 * 2 ^ 4 ∧ (roundBy 4 (16 * (sum : Int))).toNat = sum := by decide

theorem witness_TimingFrameCounts :
    running.timing.link = .locked ∧ frameGood 0x4B = true ∧ frameTurnmark 0x4B = true ∧ running.timing.aligned = true ∧
      running.timing.counter + 1 < running.timing.turnLength :=
  ⟨rfl, by decide, by decide, rfl, by decide⟩

theorem witness_LinkLocksAndLoses :
    ∃ s s' s'' : State, (s.timing.link = .seeking ∧ s.timing.runCount = 63 ∧ frameGood 0x0F = true) ∧
      (s'.timing.link = .locked ∧ s'.timing.failCount = 7 ∧ frameGood 0x00 = false) ∧
      (s''.timing.link = .seeking ∧ s''.timing.runCount < 63) ∧ State.reset.timing.link = .noSignal :=
  ⟨{ ready with timing := { ready.timing with link := .seeking, runCount := 63 } },
    { ready with timing := { ready.timing with failCount := 7 } },
    { ready with timing := { ready.timing with link := .seeking, runCount := 62 } }, ⟨rfl, rfl, by decide⟩,
    ⟨rfl, rfl, by decide⟩, ⟨rfl, by decide⟩, rfl⟩

theorem witness_PulseFires :
    NoCommands 0x0F armed ∧ armed.inj.pending.length < 8 ∧
      (∃ s : State, 8 ≤ s.inj.pending.length ∧ s.inj.state = .firing (s.timing.serial + 1) 1 ∧
        ∀ p ∈ s.inj.pending, expired (lookBack s.acq) (s.timing.serial + 1) p = false) ∧
      ({ armed with inj := { armed.inj with state := .delaying 1001 } } : State).inj.state =
        .delaying (armed.timing.serial + 1) ∧
      ({ armed with inj := { armed.inj with state := .firing 1001 1 } } : State).inj.state =
        .firing (armed.timing.serial + 1) 1 :=
  ⟨.inr (.inr rfl), by decide,
    ⟨{ armed with inj := { armed.inj with
        state := .firing 1001 1, pending := List.replicate 8 { serial := 1000, train := 0, index := 0 } } }, by decide,
      by decide, by decide⟩, by decide, by decide⟩

/-- Pulses at both ends of the expired range, for the next serial 1001 and L/S = 8: 992 is one crossing before 993, and 2^31
crossings before 993 is the last that lies before. -/
theorem witness_PendingPulsesAndRequests :
    NoCommands 0x0F armed ∧ (∀ q ∈ ([992, 0x800003E1] : List Serial),
        expired (lookBack armed.acq) (armed.timing.serial + 1) { serial := q, train := 0, index := 0 } = true) ∧
      (∀ q ∈ ([993, 0x800003E0] : List Serial),
        expired (lookBack armed.acq) (armed.timing.serial + 1) { serial := q, train := 0, index := 0 } = false) ∧
      armed.timing.link = .locked ∧ armed.inj.pending.length < 8 ∧ armed.inj.state = .armed ∧ 1 ≤ armed.inj.delay ∧
      armed.inj.delay ≤ 255 ∧ ({ armed with inj := { armed.inj with delay := 0 } } : State).inj.delay = 0 ∧ running.inj.state = .disarmed :=
  ⟨.inr (.inr rfl), by simp [expired, lookBack, armed, running, ready], by simp [expired, lookBack, armed, running, ready],
    rfl, by decide, rfl, by decide, by decide, rfl, rfl⟩

/-- A trms in progress with the reply outstanding. -/
def measuring : State :=
  { inMode { manualTrim with measuring := some { count := 3, sum := 600 } } with
    ctl := { ready.ctl with executing := .trms 7 } }

theorem witness_ClockLockComesAndGoes :
    (beforeEvent running = running ∧ running.clk.state = .locked ∧ running.trim.engine = .idle ∧ running.timing.link ≠ .noSignal) ∧
      (∃ s : State, s.clk.state = .acquiring ∧ s.clk.lockCount = 2047 ∧ s.timing.link = .seeking ∧ beforeEvent s = s) ∧
      (measuring.clk.state = .locked ∧ beforeEvent measuring = measuring ∧
        measuring.ctl.executing = .trms 7 ∧ ∃ m, measuring.trim.engine = .manual m ∧ m.measuring ≠ none) :=
  ⟨⟨rfl, rfl, rfl, by decide⟩, ⟨{ ready with
    clk := { ready.clk with state := .acquiring, lockCount := 2047 }, timing := { ready.timing with link := .seeking } },
    rfl, rfl, rfl, rfl⟩, rfl, rfl, rfl, _, rfl, by decide⟩

/-- R23, R36: TL_LOSS latches without CLK_UNLOCK where the synthesiser was still ACQUIRING. -/
theorem witness_ClockLockComesAndGoes_linkOnly :
    let s := { ready with clk := { ready.clk with state := .acquiring, lockCount := 9 } }
    beforeEvent s = s ∧ s.timing.link = .locked ∧ s.clk.state = .acquiring ∧
      (after .crossingClockLoss s).cond.recs[(0 : Fin 25)].latch = true ∧
      (after .crossingClockLoss s).cond.recs[(3 : Fin 25)].latch = false := by
  refine ⟨rfl, rfl, rfl, ?_, ?_⟩ <;> decide

theorem witness_ScanSettlesGatesAndReads :
    ∀ c ∈ ([0, 15] : List Chan), c ≤ running.integ.endChan ∧
      ({ running with integ := { running.integ with scan := .gate c 1 } } : State).integ.scan = .gate c 1 ∧
      ({ running with integ := { running.integ with scan := .settle c 1 } } : State).integ.scan = .settle c 1 := by decide

theorem witness_AcceptMakesFullRecord :
    building.acq.state = .running ∧ building.aq.records.length < 32 ∧ building.aq.snaps[(0 : Fin 16)] = none ∧
      ruleViolated building.aq building.timing.serial = false ∧ building.builder.state = .building build ∧
      building.builder.inFlight.isSome = true ∧ slotsInUse building + 1 < building.aq.hi ∧
      ({ building with aq := { building.aq with hi := 2, lo := 1 } } : State).aq.hi ≤ slotsInUse building + 1 := by decide

/-- One state for each reason of a NOSNAP record, and an IDLE builder before an accept. -/
theorem witness_AcceptMakesFullRecord_nosnap :
    (∀ st ∈ [AcqState.priming, AcqState.suspended], ({ building with acq := { building.acq with state := st } } : State).acq.state
        = st) ∧
      ruleViolated { building.aq with ruleK := 1, history := [995], degrade := true } building.timing.serial = true ∧
      building.cond.recs[(6 : Fin 25)].cls ≠ .class3 ∧
      (∀ k : Fin 16, (Vector.replicate 16 (some (Vector.replicate 16 chanSnap)) : Vector (Option Snapshot) 16)[k] ≠ none) ∧
      running.aq.records = [] ∧ running.builder.state = .idle ∧ running.aq.snaps[(0 : Fin 16)] = none ∧
      ruleViolated running.aq running.timing.serial = false := by decide

/-- An IDLE builder before an accept that makes a NOSNAP record, and before one that makes a full record with an empty list; and a
frame whose accept is all it brings about. -/
theorem witness_AcceptMakesFullRecord_built :
    (priming.aq.records = [] ∧ priming.builder.state = .idle ∧ priming.acq.state = .priming ∧
        ruleViolated priming.aq priming.timing.serial = false ∧ priming.tx.buffer.length + 5 ≤ 4096) ∧
      (running.acq.state = .running ∧ running.list.pending = false ∧ running.list.active = [] ∧
        running.aq.snaps[(0 : Fin 16)] = none) ∧
      AcceptAlone 0x87 building ∧ AcceptAlone 0xA5 building ∧ ruleViolated building.aq (building.timing.serial + 1) = false ∧
      (AcceptAlone 0x87 ready ∧ ruleViolated ready.aq (ready.timing.serial + 1) = false ∧ ready.acq.state = .standby) :=
  have alone : ∀ f ∈ ([0x87, 0xA5] : List Byte), ∀ s ∈ [building, ready], AcceptAlone f s := by
    intro f hf s hs
    simp only [List.mem_cons, List.not_mem_nil, or_false] at hf hs
    rcases hf with rfl | rfl <;> rcases hs with rfl | rfl <;>
      exact ⟨rfl, by decide, by decide, by decide, by decide, fun _ _ h => ScanState.noConfusion h, .inl rfl,
        fun _ h => absurd h List.not_mem_nil, .inr (by decide)⟩
  ⟨by decide, by decide, alone _ (by decide) _ (by simp), alone _ (by decide) _ (by simp), by decide,
    alone _ (by decide) _ (by simp), by decide, rfl⟩

theorem witness_GapsAndRuleViolations :
    ruleViolated ready.aq ready.timing.serial = false ∧ ready.acq.state = .standby ∧ ready.aq.records.length < 32 ∧
      (List.replicate 32 record).length = 32 ∧
      ∀ old ∈ ([995, 994] : List Serial), ∃ s : State, s.aq.history = old :: [998] ∧ s.aq.history.length = s.aq.ruleK ∧
        ((s.timing.serial - old).toNat < s.aq.ruleW ∨ s.aq.ruleW ≤ (s.timing.serial - old).toNat) :=
  ⟨by decide, rfl, by decide, by simp, fun old _ =>
    ⟨{ running with aq := { running.aq with ruleK := 2, ruleW := 6, history := [old, 998] } }, rfl, rfl, lt_or_ge _ _⟩⟩

theorem witness_RecordStartBeginsBuild :
    ∃ (s : State) (r : Record) (e : Entry) (es : List Entry), s.builder.state = .idle ∧ s.aq.records = [r] ∧
      r.kind = .full 3 ∧ (if s.list.pending then s.list.staged else s.list.active) = e :: es :=
  ⟨{ building with builder := { state := .idle, inFlight := none } }, record, entry, [entry], rfl, rfl, rfl, rfl⟩

theorem witness_RecordStartBeginsBuild_built :
    ∃ (s : State) (r : Record), beforeEvent s = s ∧ s.builder.state = .idle ∧ s.aq.records = [r] ∧ r.kind.slot? = none ∧
      (if s.list.pending then s.list.staged else s.list.active) = [] ∧ s.tx.buffer.length + 5 ≤ 4096 ∧
      s.acq.state ≠ .draining :=
  ⟨{ running with aq := { running.aq with records := [{ record with kind := .nosnap .rule }] } }, _, rfl, rfl, rfl, rfl, rfl,
    by decide, by decide⟩

theorem witness_EntryCompletionTakesResult :
    ∃ f snap next, building.builder.state = .building build ∧ building.builder.inFlight = some f ∧
      building.aq.snaps[f.slot] = some snap ∧ build.record.kind = .full 3 ∧
      building.list.active[build.position + 1]? = some next :=
  ⟨{ entry := entry, event := 4210, slot := 3 }, Vector.replicate 16 chanSnap, entry, rfl, rfl, by decide, rfl, rfl⟩

/-- The first of the list's two entries completed, and the second in flight. -/
def lastEntry : State := { building with builder := { building.builder with state := .building { build with position := 1 } } }

theorem witness_EntryCompletionTakesResult_last :
    ∃ f b snap, lastEntry.builder.state = .building b ∧ lastEntry.builder.inFlight = some f ∧
      lastEntry.aq.snaps[f.slot] = some snap ∧ lastEntry.aq.records = [record] ∧ record.kind = .full 3 ∧
      lastEntry.list.active[b.position + 1]? = none ∧ lastEntry.acq.state ≠ .draining ∧
      lastEntry.tx.buffer.length + (5 + (b.words ++ [0, 0, 0, 0, 0]).length) ≤ 4096 :=
  ⟨{ entry := entry, event := 4210, slot := 3 }, _, Vector.replicate 16 chanSnap, rfl, rfl, by decide, rfl, rfl, rfl, by decide,
    by decide⟩

theorem lastEntry_snap : lastEntry.aq.snaps[(3 : Fin 16)] = some (Vector.replicate 16 chanSnap) := by decide

/-- R144: the same before a buffer that has no room for its fragment. -/
theorem witness_EntryCompletionTakesResult_waits (l : List LinkWord) (h : l.length = 4090) :
    let s := { lastEntry with tx := { lastEntry.tx with buffer := l } }
    (∃ f b snap, s.builder.state = .building b ∧ s.builder.inFlight = some f ∧ s.aq.snaps[f.slot] = some snap ∧
        s.list.active[b.position + 1]? = none) ∧
      4096 < s.tx.buffer.length + (5 + (build.words ++ [0, 0, 0, 0, 0]).length) :=
  ⟨⟨{ entry := entry, event := 4210, slot := 3 }, _, Vector.replicate 16 chanSnap, rfl, rfl, lastEntry_snap, rfl⟩,
    show 4096 < l.length + _ by rw [h]; decide⟩

/-- A NOSNAP record, and a full one in slot 4. -/
def nosnapRecord : Record := { record with event := 4211, kind := .nosnap .unprimed }
def fullRecord : Record := { record with event := 4212, kind := .full 4 }

/-- A READY fragment before a given list of records. -/
def queued (rs : List Record) : State := { readyFragment with aq := { readyFragment.aq with records := rs } }

theorem witness_FragmentAppendsWhole_next :
    (∀ r ∈ [record, nosnapRecord], ∀ rest ∈ [[], [nosnapRecord], [fullRecord, nosnapRecord]],
        (queued (r :: rest)).aq.records = r :: rest ∧ (queued (r :: rest)).acq.state ≠ .draining) ∧
      (beforeEvent (queued [record, fullRecord]) = queued [record, fullRecord] ∧ readyFragment.list.active = entry :: [entry] ∧
        readyFragment.tx.buffer.length + (5 + 2) ≤ 4096) :=
  ⟨by decide, rfl, rfl, by decide⟩

/-- R141, R143: the next record starts in the event of the append; a NOSNAP one is appended too. -/
theorem test_append_starts_next :
    (after .fragmentAppend (queued [record, fullRecord])).builder.inFlight = some { entry := entry, event := 4212, slot := 4 } ∧
      (after .fragmentAppend (queued [record, nosnapRecord])).tx.buffer.length = 12 ∧
      (after .fragmentAppend (queued [nosnapRecord])).aq.snaps = readyFragment.aq.snaps := by decide

/-- A begun block before a READY fragment. -/
def makingRoom : State := { readyFragment with tx := { readyFragment.tx with buffer := [1, 2], begun := some 2 } }

theorem witness_FragmentAppendsWhole_room :
    beforeEvent makingRoom = makingRoom ∧ (∀ tag : Byte, makingRoom.ctl.executing ≠ .rset tag false) ∧ makingRoom.aq.records = [record] ∧
      makingRoom.tx.begun = some 2 ∧ (makingRoom.tx.buffer.drop 2).length + (5 + 2) ≤ 4096 ∧
      makingRoom.acq.state ≠ .draining :=
  ⟨rfl, fun _ h => Execution.noConfusion h, rfl, rfl, by decide, by decide⟩

theorem witness_FragmentAppendsWhole :
    ∃ b, readyFragment.builder.state = .ready b ∧ readyFragment.aq.records = [record] ∧ record.kind = .full 3 ∧
      readyFragment.tx.buffer.length + (5 + b.words.length) ≤ 4096 ∧ readyFragment.acq.state ≠ .draining :=
  ⟨_, rfl, rfl, rfl, by decide, by decide⟩

theorem witness_TransmitterUnits :
    beforeEvent draining = draining ∧ (∀ (tag : Byte) (b : Bool), draining.ctl.executing ≠ .rset tag b) ∧ rsetDue draining = false ∧ draining.tx.begun = none ∧
      draining.tx.waitingFrame = none ∧ draining.tx.buffer ≠ [] ∧ draining.tx.credits = 0 ∧
      ({ draining with tx := { draining.tx with credits := 1 } } : State).tx.credits = 1 ∧
      (∀ f : ThrottleFrame, ({ draining with tx := { draining.tx with waitingFrame := some f } } : State).tx.waitingFrame =
        some f) ∧
      ({ building with tx := { building.tx with buffer := [1, 2], begun := some 2 } } : State).tx.begun = some 2 :=
  ⟨rfl, fun _ _ h => Execution.noConfusion h, rfl, rfl, rfl, by decide, rfl, rfl, fun _ => rfl, rfl⟩

/-- Block completions that nothing follows: at an IDLE builder in RUNNING, in DRAINING with a word left, and at a READY fragment
of 7 words with 4090 words that stay. -/
theorem witness_TransmitterUnits_block (l : List LinkWord) (h : l.length = 4092) :
    (running.builder.state = .idle ∧ running.aq.records = [] ∧ running.acq.state ≠ .draining) ∧
      (draining.builder.state = .idle ∧ draining.aq.records = [] ∧ draining.acq.state = .draining ∧
        2 < draining.tx.buffer.length) ∧
      ∃ b, ({ readyFragment with tx := { readyFragment.tx with buffer := l, begun := some 2 } } : State).builder.state = .ready b ∧
        4096 < (l.drop 2).length + (5 + b.words.length) :=
  ⟨⟨rfl, rfl, by decide⟩, ⟨rfl, rfl, rfl, by decide⟩, _, rfl, by rw [List.length_drop, h]; decide⟩

theorem witness_DrainCompletes :
    beforeEvent draining = draining ∧ (∀ tag : Byte, draining.ctl.executing ≠ .rset tag false) ∧ draining.acq.state = .draining ∧
      draining.aq.records = [] ∧ draining.builder.state = .idle ∧
      ({ draining with tx := { draining.tx with buffer := [] } } : State).tx.buffer = [] ∧
      ({ draining with tx := { draining.tx with begun := some 3 } } : State).tx.begun = some 3 ∧
      draining.tx.buffer.length ≤ 3 :=
  ⟨rfl, fun _ h => Execution.noConfusion h, rfl, rfl, rfl, rfl, rfl, by decide⟩

/-- The sums at the top of the credit range, and a frame of count 0 that passes its check. -/
theorem witness_CreditFrameAdds :
    draining.tx.credits + (15 : BitVec 4).toNat ≤ 15 ∧
      15 < ({ draining with tx := { draining.tx with credits := 15 } } : State).tx.credits + (1 : BitVec 4).toNat ∧
      (0xA30000F0#32 ≠ 0 ∧ ∀ n : BitVec 4, n ≠ 0 → 0xA30000F0#32 ≠ 0xA3#8 ++ 0#16 ++ ~~~n ++ n) := by decide

/-- A waiting transmitter with a stall limit of 1. -/
def stalled (timer : Nat) (mark : Bool) : State :=
  { draining with tx := { draining.tx with stallLimit := 1, stallTimer := timer, stallMark := mark } }

theorem witness_StallTimeoutLatches :
    ∀ mark : Bool, ∀ timer ∈ [255, 256],
      (stalled timer mark).tx.begun.getD 0 < (stalled timer mark).tx.buffer.length ∧ (stalled timer mark).tx.credits = 0 ∧
        (stalled timer mark).tx.stallMark = mark ∧
        ((stalled timer mark).tx.stallTimer + 1 = (stalled timer mark).tx.stallLimit * 256 ∨
          (stalled timer mark).tx.stallTimer = (stalled timer mark).tx.stallLimit * 256) := by decide

/-- A table with class 3 raised and one without, for a run in each of the states the clauses name. -/
theorem witness_Class3MovesAcquisition :
    running.cond.raised .class3 = false ∧ suspended.cond.raised .class3 = true ∧ running.acq.state = .running ∧
      priming.cond.raised .class3 = false ∧ priming.acq.state = .priming ∧ suspended.acq.state = .suspended ∧
      ready.acq.state = .standby ∧ draining.acq.state = .draining := by decide

theorem witness_RoundingsOfTheManual :
    roundBy 1 (-1) = 0 ∧ roundBy 16 225640448 = 3443 ∧ rawTime 225640448 8519680 = 10 ∧ rawTime 2 (-1) = -128 := by decide

theorem witness_SuppressionDecides : snap613.disabled = false := rfl

theorem witness_EmittedEntries :
    (snap613.disabled = false ∧ snap613.window.length ≤ 16 ∧
        (reconstruct entry613 snap613 ChanRec.default sets613).words.isSome = true) ∧
      ({ snap613 with disabled := true } : ChanSnap).disabled = true ∧
      (reconstruct { entry613 with suppression := .keep } { snap613 with disabled := true } ChanRec.default
        sets613).words.isSome = true := by decide

/-- A clamped amplitude and a clamped time, at the least values beyond their ranges. -/
theorem witness_SuppressionDecides_clamps :
    (8388607 < roundBy 24 (4294967296 * (32768 : Int)) ∧ clampTo (-8388608) 8388607 (roundBy 24 (4294967296 * (32768 : Int))) = 8388607) ∧
      32767 < rawTime 1 128 ∧ rawTime 1 (-129) < -32768 := by decide

/-- The window of section 6.13 has its earliest largest difference at index 2; and an entry of each raw mode is emitted. -/
theorem witness_EmittedEntries_values :
    (snap613.window[2]? = some (slot 1010 0) ∧
        ∀ j < 5, ∃ z, snap613.window[j]? = some z ∧ z.hg ≤ 1010 ∧ (j < 2 → z.hg < 1010)) ∧
      ∀ m ∈ [Mode.reconRaw, .rawSel, .rawBoth],
        (reconstruct { entry613 with mode := m } snap613 ChanRec.default sets613).words.isSome = true := by
  refine ⟨⟨rfl, ?_⟩, by decide⟩
  intro j hj
  match j, hj with
  | 0, _ => exact ⟨_, rfl, by decide, by decide⟩
  | 1, _ => exact ⟨_, rfl, by decide, by decide⟩
  | 2, _ => exact ⟨_, rfl, by decide, by decide⟩
  | 3, _ => exact ⟨_, rfl, by decide, by decide⟩
  | 4, _ => exact ⟨_, rfl, by decide, by decide⟩

/-- A long trim at the last sample arrival of a round, channel 2 HG in progress. -/
def longTrim (round : Nat) (q : Search) : LongTrim :=
  { round := round, arrivals := 319, searches := put (Vector.replicate 16 ⟨none, none⟩) 2 ⟨some q, none⟩ }

/-- A search of the whole range whose result stands at v. -/
def search (v : Nat) : Search := { whole := true, value := v, target := 200, hysteresis := 8, meanV := 3200, sum := 51200 }

theorem witness_LongTrimRounds :
    (beforeEvent ready = ready ∧ ready.clk.state = .locked ∧ ready.acq.state = .standby ∧
        ready.front.recs[(2 : Chan)].enable = true) ∧
      ((longTrim 8 (search 247)).searches[(2 : Chan)].get .hg = some (search 247) ∧ 8 = (search 247).rounds) ∧
      (∀ k ∈ [0, 7], (longTrim k (search 0)).searches[(2 : Chan)].get .hg = some (search 0) ∧ k < (search 0).rounds) ∧
      (∀ n ∈ [0, 63, 64, 318], ({ longTrim 0 (search 0) with arrivals := n } : LongTrim).arrivals < 319) ∧
      ∀ v ∈ [0, 247, 248, 255],
        (longTrim 9 (search v)).searches[(2 : Chan)].get .hg = some (search v) ∧ 9 = (search v).rounds + 1 := by decide

/-- A long trim in which channel 2 HG finishes a search of the band and channel 5 LG goes on with one of the whole range. -/
def twoSearches : LongTrim :=
  { round := 6, arrivals := 319,
    searches := put (put (Vector.replicate 16 ⟨none, none⟩) 2 ⟨some { search 0 with whole := false }, none⟩) 5
      ⟨none, some (search 0)⟩ }

theorem searches_in_round (c : Chan) (g : Gain) (q : Search) (h : twoSearches.searches[c].get g = some q) :
    twoSearches.round ≤ q.rounds + 1 := by
  have all : ∀ (c : Chan) (g : Gain), ∀ q ∈ (twoSearches.searches[c].get g).toList, twoSearches.round ≤ q.rounds + 1 := by
    intro c g; cases g <;> revert c <;> decide
  exact all c g q (by rw [h]; exact List.mem_singleton.2 rfl)

/-- The two searches of the long trim twoSearches, in the second finishing round of the one and the search of the other. -/
theorem witness_StepKeepsRunSettled_searches :
    SearchesInRound { ready with trim := { ready.trim with engine := .long twoSearches } } :=
  fun _ ht c g q hq => by
    cases ht
    exact searches_in_round c g q hq

/-- A long trim in which channel 2 HG is the last to finish, and one in which channel 5 LG goes on. -/
theorem witness_LongTrimRounds_idle :
    (∀ (d : Chan) (h : Gain) (p : Search), (longTrim 9 (search 0)).searches[d].get h = some p → 9 = p.rounds + 1) ∧
      (twoSearches.arrivals = 319 ∧ twoSearches.searches[(2 : Chan)].get .hg = some { search 0 with whole := false } ∧
        twoSearches.round = ({ search 0 with whole := false } : Search).rounds + 1 ∧
        twoSearches.searches[(0 : Chan)].get .lg = none ∧
        twoSearches.searches[(5 : Chan)].get .lg = some (search 0) ∧ twoSearches.round ≠ (search 0).rounds + 1) :=
  ⟨by
    intro d h p
    have : ∀ (d : Chan) (h : Gain), (longTrim 9 (search 0)).searches[d].get h = none ∨
        (longTrim 9 (search 0)).searches[d].get h = some (search 0) := by
      intro d h; cases h <;> revert d <;> decide
    rcases this d h with e | e <;> rw [e] <;> intro hp <;> cases hp
    decide, by decide⟩

theorem witness_ManualMeasurementCompletes :
    beforeEvent (inMode manualTrim) = inMode manualTrim ∧ beforeEvent measuring = measuring ∧ measuring.ctl.executing = .trms 7 ∧
      (∀ n ∈ [2, 64], 1 < ({ manualTrim with settle := n } : ManualTrim).settle) ∧
      (∀ k ∈ [0, 254], ({ manualTrim with settle := 0, measuring := some { count := k, sum := 0 } } : ManualTrim).measuring =
        some { count := k, sum := 0 } ∧ k < 255) ∧
      (inMode manualTrim).clk.state = .locked ∧ (inMode manualTrim).acq.state = .standby ∧ manualTrim.settle = 1 ∧
      ({ manualTrim with settle := 0, measuring := some { count := 255, sum := 0 } } : ManualTrim).measuring =
        some { count := 255, sum := 0 } ∧
      (inMode manualTrim).front.recs[manualTrim.chan].enable = true := by decide

theorem witness_ChanWritesAndReadsRecord :
    ChanRec.default.Legal ∧
      ({ ChanRec.default with hgThreshold := 1024, lgThreshold := 4095, gainRatio := 32767 } : ChanRec).Legal ∧
      ready.acq.state = .standby ∧ inLong ready = false ∧ TakesRequests running ∧ running.acq.state ≠ .standby ∧
      inLong { ready with trim := { ready.trim with engine := .long (longTrim 0 (search 0)) } } = true :=
  ⟨by unfold ChanRec.Legal; decide, by unfold ChanRec.Legal; decide, rfl, rfl, takes_running, by decide, rfl⟩

theorem witness_PipeAndTurnWrites :
    TakesRequests ready ∧ ready.acq.state = .standby ∧ (∀ n ∈ [3, 16], 3 ≤ n ∧ n ≤ 16) ∧ (∀ n ∈ [2, 17], n < 3 ∨ 16 < n) ∧
      (∀ n ∈ [64, 4095], 64 ≤ n ∧ n ≤ 4095 ∧ n - 1 < n) ∧ TakesRequests running ∧ running.acq.state ≠ .standby :=
  ⟨takes_ready, rfl, by decide, by decide, by decide, takes_running, by decide⟩

theorem witness_ClksRestartsLock :
    TakesRequests ready ∧ ready.acq.state = .standby ∧ ready.trim.engine = .idle ∧ ready.clk.state = .locked :=
  ⟨takes_ready, rfl, rfl, rfl⟩

theorem witness_FreezeThawAndPeek :
    TakesRequests { running with pipe := (after (.frze (req [0, 1])) running).pipe } ∧
      ((after (.frze (req [0, 1])) running).pipe.chans[(0 : Chan)]).frozen = true ∧
      (running.pipe.chans[(0 : Chan)]).frozen = false ∧ 511 + 1 ≤ 512 ∧ 480 + 32 ≤ 512 :=
  ⟨⟨⟨rfl, rfl⟩, rfl⟩, by decide, by decide, by decide, by decide⟩

/-- A ready part, one without lock, one in a long trim, and one whose channel 0 has a filter set of another length. -/
theorem witness_StrtStartsRunOrRefuses :
    TakesRequests ready ∧ ready.acq.state = .standby ∧ ready.clk.state = .locked ∧ inLong ready = false ∧
      (∀ c : Chan, ready.front.recs[c].enable = true →
        ready.filt.sets[ready.front.recs[c].hgSet].length = ready.pipe.window ∧
          ready.filt.sets[ready.front.recs[c].lgSet].length = ready.pipe.window) ∧
      State.reset.clk.state ≠ .locked ∧
      (State.reset.front.recs[(0 : Chan)].enable = true ∧
        State.reset.filt.sets[State.reset.front.recs[(0 : Chan)].hgSet].length ≠ State.reset.pipe.window) ∧
      running.acq.state ≠ .standby :=
  ⟨takes_ready, rfl, rfl, rfl, by decide, by decide, by decide, by decide⟩

theorem witness_StopDrains :
    (TakesRequests building ∧ building.acq.state = .running ∧ drained building = false) ∧
      (TakesRequests suspended ∧ suspended.acq.state = .suspended ∧ suspended.aq.records = [] ∧
        suspended.builder.state = .idle ∧ suspended.tx.buffer = []) ∧
      drained { suspended with tx := { suspended.tx with buffer := [1] } } = false :=
  ⟨⟨⟨⟨rfl, rfl⟩, rfl⟩, rfl, rfl⟩, ⟨⟨⟨rfl, rfl⟩, rfl⟩, rfl, rfl, rfl, rfl⟩, rfl⟩

theorem witness_RsetResetsAndCompletes :
    PortIdle (inMode manualTrim) ∧ PortIdle suspended ∧ suspended.aq.throttle = true ∧ suspended.tx.begun = none ∧
      (∀ b : Bool, beforeEvent (resetting b []) = resetting b [] ∧ (resetting b []).ctl.executing = .rset 7 b ∧ (resetting b []).tx.begun = some 2 ∧
        (resetting b []).acq.state = .standby ∧ (resetting b []).aq.records = [] ∧
        (resetting b []).builder.state = .idle) ∧
      ({ resetting true [] with tx := { (resetting true []).tx with begun := none } } : State).tx.waitingFrame =
        some .busyOff ∧
      ({ ready with ctl := { ready.ctl with executing := .rset 7 false } } : State).ctl.executing = .rset 7 false ∧
      rsetDue (beforeEvent ready) = false :=
  ⟨⟨rfl, rfl⟩, ⟨rfl, rfl⟩, rfl, rfl, fun _ => ⟨rfl, rfl, rfl, rfl, rfl, rfl⟩, rfl, rfl, rfl⟩

theorem witness_SettingWritesReplace :
    TakesRequests running ∧ TakesRequests suspended ∧ suspended.aq.throttle = true ∧ (1 ≤ 1 ∧ 0 < 1) ∧ (16 ≤ 16 ∧ 15 < 16) :=
  ⟨takes_running, ⟨⟨rfl, rfl⟩, rfl⟩, rfl, by decide, by decide⟩

theorem witness_TrackingCommands :
    TakesRequests running ∧
      ({ tracking := true, autoTrim := true, target := ⟨16, 1023⟩, hysteresis := 64, blockExp := 8,
         updateExp := 7 } : TrackSettings).Legal ∧ (∀ v ∈ [0, 65520, 65521, 65535], v ≤ 65535) :=
  ⟨takes_running, by unfold TrackSettings.Legal; decide, by decide⟩

theorem witness_InjectorCommands :
    PortIdle running ∧ inManual running = false ∧ PortIdle (inMode manualTrim) ∧ inManual (inMode manualTrim) = true ∧
      ({ mask := 0xFFFF, amplitude := 1023, delay := 255, count := 16, spacing := 255, mode := .repeating } :
        TrainSettings).Legal :=
  ⟨⟨rfl, rfl⟩, rfl, ⟨rfl, rfl⟩, rfl, by unfold TrainSettings.Legal; decide⟩

theorem witness_ScanCommands :
    TakesRequests running ∧ ({ startChan := 0, endChan := 15, mode := .continuous, gateLength := 65535 } : ScanSettings).Legal ∧
      ({ startChan := 15, endChan := 15, mode := .single, gateLength := 16 } : ScanSettings).Legal :=
  ⟨takes_running, by unfold ScanSettings.Legal; decide, by unfold ScanSettings.Legal; decide⟩

theorem witness_ConditionTableCommands : TakesRequests suspended ∧ suspended.cond.recs[(3 : Fin 25)].latch = true :=
  ⟨⟨⟨rfl, rfl⟩, rfl⟩, by decide⟩

theorem witness_StatAndIdntAnswer : PortIdle running ∧ PortIdle (inMode manualTrim) := ⟨⟨rfl, rfl⟩, ⟨rfl, rfl⟩⟩

theorem witness_TrimStartsAndReads :
    TakesRequests ready ∧ ready.acq.state = .standby ∧ ready.clk.state = .locked ∧ inLong ready = false ∧
      (0xFFFF#16 ≠ 0 ∧ ∀ c : Chan, ready.front.recs[c].enable = true) :=
  ⟨takes_ready, rfl, rfl, rfl, by decide, by decide⟩

theorem witness_ManualModeCommands :
    (PortIdle ready ∧ ready.trim.engine = .idle ∧ ready.acq.state = .standby) ∧
      (PortIdle (inMode manualTrim) ∧ (inMode manualTrim).trim.engine = .manual manualTrim ∧
        (inMode manualTrim).clk.state = .locked) ∧
      ({ inMode manualTrim with clk := { ready.clk with state := .acquiring } } : State).clk.state ≠ .locked ∧
      inManual ready = false :=
  ⟨⟨⟨rfl, rfl⟩, rfl, rfl⟩, ⟨⟨rfl, rfl⟩, rfl, rfl⟩, by decide, rfl⟩

theorem witness_FiltWritesAndReadsSet :
    TakesRequests ready ∧ ready.acq.state = .standby ∧ (∀ n ∈ [3, 16], 3 ≤ (List.replicate n (0 : BitVec 16)).length ∧
      (List.replicate n (0 : BitVec 16)).length ≤ 16) ∧ running.acq.state ≠ .standby :=
  ⟨takes_ready, rfl, by decide, by decide⟩

theorem witness_StagedAppends :
    TakesRequests ready ∧ ready.list.pending = false ∧ entry.Legal ∧ 255 ≤ 255 ∧
      ({ ready with list := { ready.list with pending := true } } : State).list.pending = true :=
  ⟨takes_ready, rfl, by unfold Entry.Legal; decide, by decide, rfl⟩

theorem witness_StagedIndexEdits :
    TakesRequests ready ∧ ready.list.pending = false ∧
      ({ entry with threshold := 8388607, timeThreshold := 8388607, peakLo := 15 } : Entry).Legal ∧
      (∀ i ∈ [0, 32, 33, 255], i ≤ 255) ∧
      ({ ready with list := { ready.list with staged := List.replicate 32 entry } } : State).list.staged.length = 32 :=
  ⟨takes_ready, rfl, by unfold Entry.Legal; decide, by decide, rfl⟩

theorem witness_CommitAndListReading :
    TakesRequests ready ∧ ready.acq.state = .standby ∧ TakesRequests building ∧ building.acq.state ≠ .standby ∧
      0 + 2 ≤ building.list.active.length :=
  ⟨takes_ready, rfl, ⟨⟨rfl, rfl⟩, rfl⟩, by decide, by decide⟩

/-- The masks at the ends of the two ranges of cclr. -/
theorem witness_CclrClearsNamed :
    TakesRequests suspended ∧ (0x01FFFFFF#32).toNat < 2 ^ 25 ∧ 2 ^ 25 ≤ (0x02000000#32).toNat :=
  ⟨⟨⟨rfl, rfl⟩, rfl⟩, by decide, by decide⟩

end Sys2Proof.Tests
end

section
/-!
The two roundings of the manual. Round by k (R1) and the time quotient (R112) are each an integer division by a positive
number, so each is settled by the two inequalities that enclose a floor.
-/

namespace Sys2Proof.Machine

/-! ## Round by k (R1) -/

theorem roundBy_zero (x : Int) : roundBy 0 x = x := rfl

theorem roundBy_succ (j : Nat) (x : Int) : roundBy (j + 1) x = (x + 2 ^ j) / 2 ^ (j + 1) := rfl

/-- R1's floor, as the two inequalities that determine it; x may be negative. -/
theorem roundBy_encloses {k : Nat} (hk : 1 ≤ k) (x : Int) :
    2 ^ k * roundBy k x ≤ x + 2 ^ (k - 1) ∧ x + 2 ^ (k - 1) < 2 ^ k * (roundBy k x + 1) := by
  obtain ⟨j, rfl⟩ := Nat.exists_eq_add_of_le' hk
  have hpos : (0 : Int) < 2 ^ (j + 1) := by positivity
  rw [roundBy_succ, Nat.add_sub_cancel]
  exact ⟨Int.mul_ediv_self_le hpos.ne', Int.lt_mul_ediv_self_add hpos |>.trans_eq (by ring)⟩

/-! ## The time quotient (R112) -/

theorem rawTime_of_pos (sa : Int) {sb : Int} (h : 0 < sb) : rawTime sa sb = (sb * 256 + sa / 2) / sa := by
  simp [rawTime, h, abs_of_pos h]

theorem rawTime_of_neg (sa : Int) {sb : Int} (h : sb < 0) : rawTime sa sb = -((-sb * 256 + sa / 2) / sa) := by
  simp [rawTime, h, h.le, abs_of_neg h]

theorem rawTime_zero (sa : Int) : rawTime sa 0 = 0 := by simp [rawTime]

/-- With the half of the divisor added, the floor of a quotient is within half a divisor of the exact one. -/
theorem natAbs_halfUp_sub_le {a : Int} (ha : 0 < a) (n : Int) :
    2 * ((n + a / 2) / a * a - n).natAbs ≤ a.natAbs := by
  have lower : (n + a / 2) / a * a ≤ n + a / 2 := Int.ediv_mul_le _ ha.ne'
  have upper : n + a / 2 < (n + a / 2) / a * a + a := Int.lt_ediv_add_one_mul_self _ ha |>.trans_eq (by ring)
  omega

/-- The time is within a half of S_b·256 / S_a. A negative S_b mirrors the positive case, the sign being applied last. -/
theorem natAbs_rawTime_sub_le {sa : Int} (ha : 0 < sa) (sb : Int) :
    2 * (rawTime sa sb * sa - sb * 256).natAbs ≤ sa.natAbs := by
  rcases lt_trichotomy sb 0 with neg | rfl | pos
  · have mirrored : rawTime sa sb * sa - sb * 256 = -((-sb * 256 + sa / 2) / sa * sa - -sb * 256) := by
      rw [rawTime_of_neg sa neg]; ring
    rw [mirrored, Int.natAbs_neg]
    exact natAbs_halfUp_sub_le ha _
  · simp [rawTime_zero]
  · rw [rawTime_of_pos sa pos]
    exact natAbs_halfUp_sub_le ha _

/-- Settles O36: R1 by the enclosure of the floor, R112 by the sign of S_b. -/
theorem roundingsOfTheManual : Obligations.RoundingsOfTheManual := by
  refine ⟨⟨roundBy_zero, fun _ x hk => roundBy_encloses hk x⟩, fun sa sb ha => ⟨rawTime_of_pos sa, rawTime_of_neg sa, ?_,
    natAbs_rawTime_sub_le ha sb⟩⟩
  rintro rfl
  exact rawTime_zero sa

end Sys2Proof.Machine
end

section
/-!
The edits of the staged copy at an index (R131, R132). What lins, lrem and lrep do with the payload of a legal entry and an
index of one byte is said once for each, with the model's splitting of the list at the index put as the library's edit of a
list at an index.
-/

namespace Sys2Proof.Machine

/-! ## A list split at an index -/

/-- Up to the end of a list, an element between the two parts of a split is an element inserted. -/
theorem take_append_cons_drop {α : Type} (x : α) (l : List α) {i : Nat} (h : i ≤ l.length) :
    l.take i ++ x :: l.drop i = l.insertIdx i x := by
  induction l generalizing i with
  | nil => obtain rfl : i = 0 := Nat.le_zero.1 h; rfl
  | cons y l ih =>
    cases i with
    | zero => rfl
    | succ i => simpa using ih (Nat.le_of_succ_le_succ h)

/-- An edit of the staged copy leaves all else. -/
theorem editStaged_eq (f : List Entry → List Entry) (s : State) :
    editStaged f s = { s with list := { s.list with staged := f s.list.staged } } := rfl

/-! ## The three commands, with no commit pending -/

section

variable {tag : Byte} {s : State} {e : Entry} {i : Nat}

/-- lins checks the index before the room in the copy (R131). -/
theorem linsBody_legal (he : e.Legal) (hi : i ≤ 255) (hp : s.list.pending = false) :
    linsBody { tag := tag, payload := u8 i ++ entryBytes e } s =
      if stagedCount s < i then answer tag .badArg [] s
      else if stagedCount s < 32 then
        answer tag .ok (u8 (stagedCount s + 1) ++ u8 i) (editStaged (fun l => l.insertIdx i e) s)
      else answer tag .full [] s := by
  have taken : linsBody { tag := tag, payload := u8 i ++ entryBytes e } s =
      match inRange 0 (stagedCount s) i with
      | none => answer tag .badArg [] s
      | some k =>
        if 32 ≤ stagedCount s then answer tag .full [] s
        else answer tag .ok (u8 (stagedCount s + 1) ++ u8 k) (editStaged (fun l => l.take k ++ e :: l.drop k) s) := by
    simp only [linsBody, entryBytes, u8, u24, List.cons_append, List.nil_append, readEntry_bytes e he,
      toNat_byte i hi, hp]
    cases inRange 0 (stagedCount s) i <;> rfl
  rw [taken]
  rcases Nat.lt_or_ge (stagedCount s) i with beyond | within
  · rw [inRange_none (.inr beyond), if_pos beyond]
  · have inserted : editStaged (fun l => l.take i ++ e :: l.drop i) s = editStaged (fun l => l.insertIdx i e) s := by
      rw [editStaged_eq, editStaged_eq, take_append_cons_drop e _ within]
    rw [inRange_eq (Nat.zero_le i) within, if_neg (Nat.not_lt.2 within)]
    rcases Nat.lt_or_ge (stagedCount s) 32 with room | full
    · rw [if_pos room, ← inserted]
      exact if_neg (Nat.not_le.2 room)
    · rw [if_neg (Nat.not_lt.2 full)]
      exact if_pos full

/-- lrem at an index below the count (R132). -/
theorem lremBody_index (hi : i ≤ 255) (hp : s.list.pending = false) :
    lremBody { tag := tag, payload := u8 i } s =
      if i < stagedCount s then
        answer tag .ok (u8 (stagedCount s - 1) ++ u8 i) (editStaged (fun l => l.eraseIdx i) s)
      else answer tag .badArg [] s := by
  simp only [lremBody, u8, hp, toNat_byte i hi, List.eraseIdx_eq_take_drop_succ]
  rfl

/-- lrep at an index below the count (R132); the count stays. -/
theorem lrepBody_legal (he : e.Legal) (hi : i ≤ 255) (hp : s.list.pending = false) :
    lrepBody { tag := tag, payload := u8 i ++ entryBytes e } s =
      if i < stagedCount s then
        answer tag .ok (u8 (stagedCount s) ++ u8 i) (editStaged (fun l => l.set i e) s)
      else answer tag .badArg [] s := by
  simp [lrepBody, entryBytes, u8, u24, readEntry_bytes e he, toNat_byte i hi, hp, answerOk, refuse]

end

/-- Settles O54: the port takes each of the three requests, and each does what its body's law says. -/
theorem stagedIndexEdits : Obligations.StagedIndexEdits := by
  intro tag s e i takes legal byte noCommit
  refine ⟨congrArg Host.Outcome.next ?_, congrArg Host.Outcome.next ?_, congrArg Host.Outcome.next ?_⟩
  · exact (serve_takes _ _ _ _ takes).trans (linsBody_legal legal byte noCommit)
  · exact (serve_takes _ _ _ _ takes).trans (lremBody_index byte noCommit)
  · exact (serve_takes _ _ _ _ takes).trans (lrepBody_legal legal byte noCommit)

end Sys2Proof.Machine
end

section
/-!
An inbound credit frame (R156, R202). The words that pass the check are exactly the words `creditWord n`, one for each count;
what a word does to the part is said once for the words that add a count and once for those that are discarded.
-/

namespace Sys2Proof.Machine

/-! ## The words that pass the check (R202) -/

/-- The credit frame of count n, as R202 lays it out. -/
def creditWord (n : BitVec 4) : LinkWord := 0xA3#8 ++ 0#16 ++ ~~~n ++ n

theorem creditGood_creditWord (n : BitVec 4) : creditGood (creditWord n) = true := by
  revert n; decide

theorem extractLsb'_creditWord (n : BitVec 4) : (creditWord n).extractLsb' 0 4 = n :=
  BitVec.extractLsb'_append_eq_right

theorem creditCount_creditWord (n : BitVec 4) : creditCount (creditWord n) = n.toNat :=
  congrArg BitVec.toNat (extractLsb'_creditWord n)

/-- A word is its four fields of R202, from bit 31 down. -/
theorem linkWord_fields (w : LinkWord) :
    w.extractLsb' 24 8 ++ w.extractLsb' 8 16 ++ w.extractLsb' 4 4 ++ w.extractLsb' 0 4 = w := by
  have upper : w.extractLsb' 24 8 ++ w.extractLsb' 8 16 = w.extractLsb' 8 24 :=
    BitVec.extractLsb'_append_extractLsb'_eq_extractLsb' rfl
  have aboveCount : w.extractLsb' 8 24 ++ w.extractLsb' 4 4 = w.extractLsb' 4 28 :=
    BitVec.extractLsb'_append_extractLsb'_eq_extractLsb' rfl
  rw [upper, aboveCount]
  exact BitVec.extractLsb'_append_extractLsb' (w := 28) (len := 4)

/-- A word passes its check when it is the credit frame of the count it carries. -/
theorem creditGood_iff (w : LinkWord) : creditGood w = true ↔ w = creditWord (w.extractLsb' 0 4) := by
  constructor
  · intro passes
    simp only [creditGood, Bool.and_eq_true, decide_eq_true_eq] at passes
    obtain ⟨⟨marker, stray⟩, check⟩ := passes
    rw [creditWord, ← marker, ← stray, ← check]
    exact (linkWord_fields w).symm
  · intro frame
    rw [frame]
    exact creditGood_creditWord _

/-- A word adds credits when it is the frame of a count other than 0. -/
theorem creditAdds_iff (w : LinkWord) :
    (creditGood w ∧ 0 < creditCount w) ↔ ∃ n : BitVec 4, n ≠ 0 ∧ w = creditWord n := by
  constructor
  · rintro ⟨passes, counts⟩
    refine ⟨w.extractLsb' 0 4, ?_, (creditGood_iff w).1 passes⟩
    intro zero
    exact absurd counts (by simp [creditCount, zero])
  · rintro ⟨n, nonzero, rfl⟩
    rw [creditCount_creditWord]
    exact ⟨creditGood_creditWord n, BitVec.toNat_pos_of_ne_zero nonzero⟩

theorem creditWord_ne_idle (n : BitVec 4) : creditWord n ≠ 0#32 := by
  revert n; decide

/-! ## What a word does (R156) -/

section

variable {s : State} {n : BitVec 4} {w : LinkWord}

theorem creditFrame_idle (s : State) : creditFrame 0#32 s = s := if_pos rfl

theorem creditFrame_creditWord (nonzero : n ≠ 0) :
    creditFrame (creditWord n) s =
      occurIf (decide (15 < s.tx.credits + n.toNat)) .rlCreditOvf none
        { s with tx := { s.tx with credits := min 15 (s.tx.credits + n.toNat) } } := by
  rw [creditFrame, if_neg (creditWord_ne_idle n), if_pos ((creditAdds_iff _).2 ⟨n, nonzero, rfl⟩), creditCount_creditWord]
  rfl

theorem creditFrame_fits (nonzero : n ≠ 0) (fits : s.tx.credits + n.toNat ≤ 15) :
    creditFrame (creditWord n) s = { s with tx := { s.tx with credits := s.tx.credits + n.toNat } } := by
  rw [creditFrame_creditWord nonzero, decide_eq_false (Nat.not_lt.2 fits), Nat.min_eq_right fits]
  rfl

theorem creditFrame_overflows (nonzero : n ≠ 0) (above : 15 < s.tx.credits + n.toNat) :
    creditFrame (creditWord n) s = occur .rlCreditOvf none { s with tx := { s.tx with credits := 15 } } := by
  rw [creditFrame_creditWord nonzero, decide_eq_true above, Nat.min_eq_left above.le]
  rfl

theorem creditFrame_discards (busy : w ≠ 0#32) (bad : ∀ n : BitVec 4, n ≠ 0 → w ≠ creditWord n) :
    creditFrame w s = occur .rlCreditErr none s := by
  have noCount : ¬(creditGood w ∧ 0 < creditCount w) := by
    rw [creditAdds_iff]
    rintro ⟨n, nonzero, frame⟩
    exact bad n nonzero frame
  rw [creditFrame, if_neg busy, if_neg noCount]

end

/-- The command is the word's effect, after what the port does first. -/
theorem exec_creditFrame (w : LinkWord) (s : State) :
    exec (.creditFrame w) s = .next (creditFrame w (beforeEvent s)) := rfl

/-- Settles O32: the idle word, the two sums of a frame that passes with a count, and every other word. -/
theorem creditFrameAdds : Obligations.CreditFrameAdds := by
  refine ⟨fun s0 => ?_, fun n s0 nonzero fits => ?_, fun n s0 nonzero above => ?_, fun w s0 busy bad => ?_⟩
  · rw [exec_creditFrame, creditFrame_idle]
  · exact (exec_creditFrame _ s0).trans (congrArg _ (creditFrame_fits nonzero fits))
  · exact (exec_creditFrame _ s0).trans (congrArg _ (creditFrame_overflows nonzero above))
  · exact (exec_creditFrame w s0).trans (congrArg _ (creditFrame_discards busy bad))

end Sys2Proof.Machine
end

section
/-!
The commands of the Charge Injector (R164 to R167). What each body does is said once for each injector state that its rule
tells apart, and the settings of a legal train are read as they were written.
-/

namespace Sys2Proof.Machine

/-! ## Changes of the injector -/

theorem mapInj_configure (t : TrainSettings) (s : State) :
    s.mapInj (Injector.configure t) =
      { s with inj := { s.inj with
        mask := t.mask, amplitude := t.amplitude, delay := t.delay, count := t.count, spacing := t.spacing,
        mode := t.mode } } := rfl

theorem setInjState_eq (x : InjState) (s : State) :
    setInjState x s = { s with inj := { s.inj with state := x } } := rfl

/-- The state in which inja leaves the injector under a LOCKED clock: DISARMED enters ARMED, any other stays (R165). -/
def InjState.afterArming (x : InjState) : InjState := if x = .disarmed then .armed else x

/-- The change of state that inja makes only from DISARMED is a change to the state after arming. -/
theorem setInjState_afterArming (s : State) :
    (if s.inj.state = .disarmed then setInjState .armed s else s) = setInjState s.inj.state.afterArming s := by
  unfold InjState.afterArming
  split <;> rfl

section

variable {tag : Byte} {s : State}

/-! ## injs (R164) -/

theorem injsBody_disarmed {t : TrainSettings} (legal : t.Legal) (disarmed : s.inj.state = .disarmed) :
    injsBody { tag := tag, payload := trainBytes t } s =
      answer tag .ok (trainBytes t) (s.mapInj (Injector.configure t)) := by
  simp only [injsBody, trainBytes, maskBytes, u8, u16, List.cons_append, List.nil_append, readTrain_bytes t legal, disarmed]
  rfl

theorem injsBody_busy (t : TrainSettings) (active : s.inj.state ≠ .disarmed) :
    injsBody { tag := tag, payload := trainBytes t } s = answer tag .busy [] s :=
  if_pos active

/-! ## inja and injd (R165) -/

theorem injaBody_badLen {p : List Byte} (nonempty : p ≠ []) :
    injaBody { tag := tag, payload := p } s = answer tag .badLen [] s := by
  cases p with
  | nil => exact absurd rfl nonempty
  | cons b p => rfl

theorem injdBody_badLen {p : List Byte} (nonempty : p ≠ []) :
    injdBody { tag := tag, payload := p } s = answer tag .badLen [] s := by
  cases p with
  | nil => exact absurd rfl nonempty
  | cons b p => rfl

theorem injaBody_unlocked (unlocked : s.clk.state ≠ .locked) :
    injaBody { tag := tag, payload := [] } s = answer tag .badState [] s :=
  if_pos unlocked

/-- The reply tells the state that results. -/
theorem injaBody_locked (locked : s.clk.state = .locked) :
    injaBody { tag := tag, payload := [] } s =
      answer tag .ok (u8 s.inj.state.afterArming.code) (setInjState s.inj.state.afterArming s) := by
  have taken : injaBody { tag := tag, payload := [] } s =
      answer tag .ok (u8 (if s.inj.state = .disarmed then setInjState .armed s else s).inj.state.code)
        (if s.inj.state = .disarmed then setInjState .armed s else s) := if_neg (not_not_intro locked)
  rw [taken, setInjState_afterArming]
  rfl

theorem injdBody_empty :
    injdBody { tag := tag, payload := [] } s =
      answer tag .ok (u8 s.inj.state.fired) (setInjState .disarmed s) := rfl

/-! ## injf (R166, R167) -/

theorem injfBody_disarmed (disarmed : s.inj.state = .disarmed) :
    injfBody { tag := tag, payload := [] } s = answer tag .badState [] s := by
  simp [injfBody, disarmed, refuse]

/-- The train is due D crossings after the next crossing arrival. -/
theorem injfBody_armed (armed : s.inj.state = .armed) :
    injfBody { tag := tag, payload := [] } s =
      answer tag .ok
        (u8 (s.inj.train + 1).toNat ++ u32 (s.timing.serial + 1 + BitVec.ofNat 32 s.inj.delay).toNat)
        (startTrain (s.timing.serial + 1 + BitVec.ofNat 32 s.inj.delay) s) := by
  simp only [injfBody, armed]
  rfl

theorem injfBody_busy (disarmed : s.inj.state ≠ .disarmed) (armed : s.inj.state ≠ .armed) :
    injfBody { tag := tag, payload := [] } s = answer tag .busy [] s := by
  cases state : s.inj.state with
  | disarmed => exact absurd state disarmed
  | armed => exact absurd state armed
  | delaying next => simp [injfBody, state, refuse]
  | firing next fired => simp [injfBody, state, refuse]

end

/-- Settles O56: manual trim mode refuses at the port; elsewhere each command does what its body's laws say, state by
state of the injector. -/
theorem injectorCommands : Obligations.InjectorCommands := by
  intro tag s idle
  refine ⟨fun manual => ⟨?_, ?_⟩, fun outside => ⟨fun t legal => ?_, fun p nonempty => ⟨?_, ?_⟩, ?_, ?_, ?_⟩⟩
  · exact congrArg Host.Outcome.next (serve_manual _ _ _ idle manual)
  · exact congrArg Host.Outcome.next (serve_manual _ _ _ idle manual)
  all_goals
    have takes : TakesRequests s := ⟨idle, outside⟩
    refine congrArg Host.Outcome.next ((serve_takes _ _ _ _ takes).trans ?_)
  · split
    next disarmed => exact (injsBody_disarmed legal disarmed).trans (by rw [mapInj_configure])
    next active => exact injsBody_busy t active
  · exact injaBody_badLen nonempty
  · exact injdBody_badLen nonempty
  · split
    next locked =>
      rw [injaBody_locked locked, setInjState_eq]
      cases s.inj.state <;> rfl
    next unlocked => exact injaBody_unlocked unlocked
  · rw [injdBody_empty, setInjState_eq]
    cases s.inj.state <;> rfl
  · split
    next disarmed => exact injfBody_disarmed disarmed
    next armed => exact injfBody_armed armed
    next due delaying => exact injfBody_busy (by simp [delaying]) (by simp [delaying])
    next due fired firing => exact injfBody_busy (by simp [firing]) (by simp [firing])

end Sys2Proof.Machine
end

section
/-!
The Control Port's own readings, stat and idnt (R197, R198). Both are on R93's list, so an idle port executes them whatever
the Trim Engine does; a reading leaves every block alone, and the reply is the whole change.
-/

namespace Sys2Proof.Machine

section

variable {tag : Byte} {p : List Byte} {s : State}

/-! ## stat (R197) -/

theorem exec_stat_idle (r : Request) (idle : PortIdle s) : exec (.stat r) s = .next (statBody r s) :=
  congrArg Host.Outcome.next (serve_always _ _ _ idle)

theorem statBody_empty : statBody { tag := tag, payload := [] } s = answer tag .ok (statBytes s) s := rfl

theorem statBody_badLen (nonempty : p ≠ []) : statBody { tag := tag, payload := p } s = answer tag .badLen [] s := by
  cases p with
  | nil => exact absurd rfl nonempty
  | cons b p => rfl

/-! ## idnt (R198) -/

theorem exec_idnt_idle (r : Request) (idle : PortIdle s) : exec (.idnt r) s = .next (idntBody r s) :=
  congrArg Host.Outcome.next (serve_always _ _ _ idle)

theorem idntBody_empty : idntBody { tag := tag, payload := [] } s = answer tag .ok identBytes s := rfl

theorem idntBody_badLen (nonempty : p ≠ []) : idntBody { tag := tag, payload := p } s = answer tag .badLen [] s := by
  cases p with
  | nil => exact absurd rfl nonempty
  | cons b p => rfl

/-- The capacities that idnt reads from Config are the numbers of R198. -/
theorem identBytes_eq :
    identBytes = u16 0x1624 ++ u8 1 ++ u16 16 ++ u16 512 ++ u16 32 ++ u16 16 ++ u16 32 ++ u16 8 ++ u16 4096 := rfl

end

/-- Settles O60: an idle port executes both commands in every state, so each answers what its body's laws say, for an empty
payload and for any other. -/
theorem statAndIdntAnswer : Obligations.StatAndIdntAnswer := by
  intro tag s idle
  refine ⟨?_, ?_, fun p nonempty => ⟨?_, ?_⟩⟩
  · rw [exec_stat_idle _ idle, statBody_empty, statBytes]
  · rw [exec_idnt_idle _ idle, idntBody_empty, identBytes_eq]
  · rw [exec_stat_idle _ idle, statBody_badLen nonempty]
  · rw [exec_idnt_idle _ idle, idntBody_badLen nonempty]

end Sys2Proof.Machine
end


section
/-!
What a command can do, said once. `Quiet` names the elementary changes that move no record, no fragment and no word of the
output buffer; `Work` those of the builder, the record list and the buffer; `Change` puts both together with the operations
made of them. Every effect is a chain of changes (`Moves`), so that a rule of the part is an induction over chains.
-/

namespace Sys2Proof.Machine

/-! ## Elementary changes -/

/-- A change of the activity counters that keeps R74's balance. -/
def Balanced (f : Counters → Counters) : Prop :=
  ∀ c, c.accSeen = c.recMade + c.accNoRec → (f c).accSeen = (f c).recMade + (f c).accNoRec

/-- Every enabled channel's filter sets have the length of the window (R41, R43). -/
def FiltersFit (s : State) : Prop :=
  ∀ c : Chan, s.front.recs[c].enable = true →
    s.filt.sets[s.front.recs[c].hgSet].length = s.pipe.window ∧
      s.filt.sets[s.front.recs[c].lgSet].length = s.pipe.window

/-- Elementary changes that leave the records, the snapshot slots, the builder and the words of the output buffer. Each carries
what the rules of the part ask of it. -/
inductive Quiet : State → State → Prop
  | timing (f : Timing → Timing) (s : State) : Quiet s (s.mapTiming f)
  | integ (f : Integrator → Integrator) (s : State) : Quiet s (s.mapInteg f)
  | index (f : Nat → Nat) (s : State) : Quiet s (s.mapFreeIndex f)
  | ped (f : Tracker → Tracker) (s : State) : Quiet s (s.mapPed f)
  | lock (f : Clock → Clock) (s : State) (keepsS : (f s.clk).s = s.clk.s) : Quiet s (s.mapClk f)
  | dacs (f : FrontEnd → FrontEnd) (s : State) (keepsRecs : (f s.front).recs = s.front.recs) : Quiet s (s.mapFront f)
  | inj (f : Injector → Injector) (s : State) (fits : s.inj.pending.length ≤ 8 → (f s.inj).pending.length ≤ 8) :
      Quiet s (s.mapInj f)
  | list (f : ReadoutList → ReadoutList) (s : State)
      (fits : s.list.staged.length ≤ 32 → s.list.active.length ≤ 32 →
        (f s.list).staged.length ≤ 32 ∧ (f s.list).active.length ≤ 32) : Quiet s (s.mapList f)
  | queue (f : AcceptQueue → AcceptQueue) (s : State) (keepsRecords : (f s.aq).records = s.aq.records)
      (keepsSnaps : (f s.aq).snaps = s.aq.snaps) (keepsThrottle : (f s.aq).throttle = s.aq.throttle)
      (fits : s.aq.history.length ≤ s.aq.ruleK → (f s.aq).history.length ≤ (f s.aq).ruleK) : Quiet s (s.mapAq f)
  | tx (f : Transmitter → Transmitter) (s : State) (keepsBuffer : (f s.tx).buffer = s.tx.buffer)
      (fits : s.tx.credits ≤ 15 → (f s.tx).credits ≤ 15)
      (keepsBegun : (f s.tx).begun = s.tx.begun ∨ (f s.tx).begun.isSome = true) : Quiet s (s.mapTx f)
  | trim (f : Trim → Trim) (s : State) (inStandby : TrimInStandby s → TrimInStandby (s.mapTrim f))
      (inRound : SearchesInRound s → SearchesInRound (s.mapTrim f)) : Quiet s (s.mapTrim f)
  | pipe (f : Pipeline → Pipeline) (s : State) (keepsLatency : (f s.pipe).latency = s.pipe.latency)
      (keepsWindow : (f s.pipe).window = s.pipe.window) (rings : RingsCanonical s → RingsCanonical (s.mapPipe f))
      (fill : FillBounded s → FillBounded (s.mapPipe f)) : Quiet s (s.mapPipe f)
  | conds (f : CondTable → CondTable) (s : State) (keepsCounters : (f s.cond).counters = s.cond.counters) :
      Quiet s (changeConds f s)
  | tally (f : Counters → Counters) (s : State) (balanced : Balanced f) : Quiet s (tally f s)
  | throttleOn (s : State) : Quiet s (throttleOn s)
  | throttleRelax (s : State) : Quiet s (throttleRelax s)
  | primingTest (s : State) : Quiet s (primingTest s)
  | acqDeparture (s : State) : Quiet s (acqDeparture s)
  | startRun (s : State) (standby : s.acq.state = .standby) (idle : s.trim.engine = .idle) (filters : FiltersFit s) :
      Quiet s (startRun s)
  | chanRecs (f : FrontEnd → FrontEnd) (s : State) (standby : s.acq.state = .standby) : Quiet s (s.mapFront f)
  | filt (f : FilterTable → FilterTable) (s : State) (standby : s.acq.state = .standby) : Quiet s (s.mapFilt f)
  | clockSettings (f : Clock → Clock) (s : State) (standby : s.acq.state = .standby) : Quiet s (s.mapClk f)
  | pipeSettings (f : Pipeline → Pipeline) (s : State) (standby : s.acq.state = .standby)
      (keepsChans : (f s.pipe).chans = s.pipe.chans) (keepsFill : (f s.pipe).fill = s.pipe.fill) : Quiet s (s.mapPipe f)
  | finishTrms (status : Status) (payload : List Byte) (s : State) : Quiet s (finishTrms status payload s)

/-- Acquisition in another state (R40). -/
def setAcq (x : AcqState) (s : State) : State := s.mapAcq fun a => { a with state := x }

/-- Elementary changes that move records, fragments or the words of the output buffer; the release of a block's words apart. -/
inductive Work : State → State → Prop
  | builder (f : Builder → Builder) (s : State) : Work s (s.mapBuilder f)
  | words (f : Transmitter → Transmitter) (s : State) (keepsBegun : (f s.tx).begun = s.tx.begun)
      (fits : s.tx.buffer.length ≤ 4096 → s.tx.credits ≤ 15 →
        (f s.tx).buffer.length ≤ 4096 ∧ (f s.tx).credits ≤ 15) : Work s (s.mapTx f)
  | removeHead (s : State) : Work s (removeHead s)
  | appendRecord (r : Record) (snap : Snapshot) (s : State) (room : s.aq.records.length < 32)
      (free : ∀ k, r.kind = .full k → s.aq.snaps[k] = none) : Work s (appendRecord r snap s)
  | enter (x : AcqState) (s : State) (h : x = .standby ∨ (x = .draining ∧ s.acq.state ≠ .standby)) : Work s (setAcq x s)
  | reset (s : State) : Work s (setAcq .standby (resetReadout (resetQueue s)))

/-- A quiet change, or an operation of the builder, the record list and the controller that moves more. -/
inductive Change : State → State → Prop
  | quiet {s t : State} (h : Quiet s t) : Change s t
  | recordStart (s : State) : Change s (recordStart s)
  | fragmentAppend (s : State) : Change s (fragmentAppend s)
  | completeEntry (s : State) : Change s (completeEntry s)
  | drainTest (s : State) : Change s (drainTest s)
  | stopRun (s : State) : Change s (stopRun s)
  | accept (e : EventNum) (s : State) : Change s (acceptArrival e s)
  | reset (s : State) : Change s (enterStandby (resetReadout (resetQueue s)))

/-- A chain of changes. -/
abbrev Moves : State → State → Prop := Relation.ReflTransGen Change

theorem Quiet.moves {s t : State} (h : Quiet s t) : Moves s t := .single (.quiet h)

/-- What every change keeps, a chain of them keeps. -/
theorem Moves.keeps {P : State → Prop} (h : ∀ s t, Change s t → P s → P t) {s t : State} (m : Moves s t) (hs : P s) :
    P t := by
  induction m with
  | refl => exact hs
  | tail _ c ih => exact h _ _ c ih

end Sys2Proof.Machine
end


section
/-!
Every event's effect is a chain of changes.
-/

namespace Sys2Proof.Machine

/-! ## Occurrences -/

theorem occur_moves (c : Cond) (ev : Option EventNum) (s : State) : Moves s (occur c ev s) :=
  (Quiet.conds _ s rfl).moves

theorem occurIf_moves (b : Bool) (c : Cond) (ev : Option EventNum) (s : State) : Moves s (occurIf b c ev s) := by
  unfold occurIf
  split
  · exact occur_moves c ev s
  · exact .refl

theorem occurAll_moves (cs : List Cond) (s : State) : Moves s (occurAll cs s) := by
  unfold occurAll
  induction cs generalizing s with
  | nil => exact .refl
  | cons c t ih => exact (occur_moves c none s).trans (ih _)

/-- A list of things, each a chain of changes, is a chain of changes. -/
theorem foldl_moves {α : Type} (f : State → α → State) (h : ∀ s a, Moves s (f s a)) (l : List α) (s : State) :
    Moves s (l.foldl f s) := by
  induction l generalizing s with
  | nil => exact .refl
  | cons a t ih => exact (h s a).trans (ih _)

/-! ## Sample arrivals -/

theorem bump_le (top n : Nat) (h : n ≤ top) : bump top n ≤ top := by
  unfold bump; split <;> omega

theorem bump_mono (top : Nat) {m n : Nat} (h : m ≤ n) (hn : n ≤ top) : bump top m ≤ bump top n := by
  unfold bump; split <;> split <;> omega

/-- What a sample arrival writes in the rings keeps them canonical. -/
theorem writeChan_ring (w : Fin 512) (slot : Option Slot) (p : ChanPipe) (h : ringWf p.ring = true) :
    ringWf (writeChan w slot p).ring = true := by
  cases slot with
  | none => exact h
  | some y => exact ringWf_ringWrite p.ring w.val y w.isLt h

theorem stepMark_ring (b : Bool) (p : ChanPipe) : (stepMark b p).ring = p.ring := by
  unfold stepMark; split <;> rfl

theorem stepMark_refill (b : Bool) (p : ChanPipe) : (stepMark b p).refill = p.refill := by
  unfold stepMark; split <;> rfl

/-- No slot is written without the pipeline being written. -/
theorem writtenSlot_unwritten {s : State} (h : pipelineWritten s = false) (x : Samples) (c : Chan) :
    writtenSlot s x c = none := by
  simp [writtenSlot, h]

theorem writeChan_refill_none (w : Fin 512) (p : ChanPipe) : (writeChan w none p).refill = p.refill := rfl

theorem writeChan_refill_le (w : Fin 512) (slot : Option Slot) (p : ChanPipe) {n : Nat} (h : p.refill ≤ n) (hn : n ≤ 512) :
    (writeChan w slot p).refill ≤ bump 512 n := by
  cases slot with
  | none => simp only [writeChan, bump]; split <;> omega
  | some y => exact bump_mono 512 h hn

theorem writeSample_moves (x : Samples) (s : State) : Moves s (writeSample x s) := by
  unfold writeSample
  refine .tail (.tail (.single (.quiet (.pipe _ s rfl rfl (fun h c => ?_) (fun h => ?_)))) (.quiet (.ped _ _)))
    (.quiet (.dacs _ _ rfl))
  · simpa [tab, stepMark_ring] using writeChan_ring s.pipe.w (writtenSlot s x c) s.pipe.chans[c] (h c)
  · obtain ⟨fill, refill⟩ := h
    cases written : pipelineWritten s with
    | false =>
      refine ⟨by simpa [written] using fill, fun c => ?_⟩
      simpa [tab, written, stepMark_refill, writtenSlot_unwritten written, writeChan_refill_none] using refill c
    | true =>
      refine ⟨by simpa [written] using bump_le 512 _ fill, fun c => ?_⟩
      simpa [tab, written, stepMark_refill] using writeChan_refill_le _ _ _ (refill c) fill

/-- The round of a long trim may change as long as each search in progress stays within its rounds. -/
theorem searchesInRound_of {f : Trim → Trim} {s : State}
    (h : ∀ t, (f s.trim).engine = .long t →
      ∀ (c : Chan) (g : Gain) (q : Search), t.searches[c].get g = some q → t.round ≤ q.rounds + 1) :
    SearchesInRound (s.mapTrim f) := h

/-- A trim engine that is not IDLE, or is left IDLE, may change as it likes where STANDBY is concerned. -/
theorem trimInStandby_of {f : Trim → Trim} {s : State} (h : s.trim.engine ≠ .idle ∨ (f s.trim).engine = .idle) :
    TrimInStandby s → TrimInStandby (s.mapTrim f) := by
  intro hs ne
  rcases h with busy | idle
  · exact absurd (hs ne) busy
  · exact idle

theorem trimInStandby_of_standby {f : Trim → Trim} {s : State} (h : s.acq.state = .standby) :
    TrimInStandby (s.mapTrim f) := fun ne => absurd h ne

/-- Manual-mode data may replace the engine's while it is not IDLE. -/
theorem setManual_quiet (m : ManualTrim) (s : State) (h : s.acq.state = .standby ∨ s.trim.engine ≠ .idle) :
    Quiet s (setManual m s) := by
  refine .trim _ s ?_ (fun _ t ht => by simp at ht)
  rcases h with standby | busy
  · exact fun _ => trimInStandby_of_standby standby
  · exact trimInStandby_of (.inl busy)

theorem trimIdle_quiet (g : Trim → Vector (PerGain TrimInfo) 16) (s : State) :
    Quiet s (s.mapTrim fun u => { engine := .idle, gains := g u }) :=
  .trim _ s (trimInStandby_of (.inr rfl)) (fun _ t ht => by simp at ht)

theorem abortLong_moves (t : LongTrim) (s : State) : Moves s (abortLong t s) :=
  (trimIdle_quiet _ s).moves.trans (occur_moves _ _ _)

theorem manualSample_moves (m : ManualTrim) (x : Samples) (s : State) (h : s.trim.engine ≠ .idle) :
    Moves s (manualSample m x s) := by
  unfold manualSample
  split
  · exact (setManual_quiet _ s (.inr h)).moves
  · split
    · exact .refl
    · dsimp only
      split
      · exact (setManual_quiet _ s (.inr h)).moves
      · exact (setManual_quiet _ s (.inr h)).moves.tail (.quiet (.finishTrms _ _ _))

theorem addSample_rounds {b : Bool} {n : Nat} {o : Option Search} {q : Search} (h : addSample b n o = some q) :
    ∃ p, o = some p ∧ q.rounds = p.rounds := by
  cases o with
  | none => simp [addSample] at h
  | some p =>
    refine ⟨p, rfl, ?_⟩
    simp only [addSample, Option.map_some, Option.some.injEq] at h
    rw [← h]
    split <;> rfl

/-- A channel-gain that goes on has its second finishing round to come at most. -/
theorem roundResult_search {o : Option Search} {round dac p sigma : Nat} {info : TrimInfo} {q : Search}
    (h : (roundResult o round dac p sigma info).search = some q) : round + 1 ≤ q.rounds + 1 := by
  cases o with
  | none => simp [roundResult] at h
  | some q0 =>
    simp only [roundResult, roundOf] at h
    split at h
    · next less => obtain rfl := Option.some.inj h; exact Nat.succ_le_succ (Nat.le_of_lt less)
    · split at h
      · next eq => obtain rfl := Option.some.inj h; exact Nat.succ_le_succ (Nat.le_of_eq eq)
      · unfold finishSearch at h
        dsimp only at h
        split at h <;> simp at h

theorem completeRound_moves (t : LongTrim) (s : State) (h : s.trim.engine ≠ .idle) : Moves s (completeRound t s) := by
  unfold completeRound
  refine .trans (.tail (.tail (.single (.quiet (.dacs _ s rfl))) (.quiet (.ped _ _))) (.quiet (.trim _ _ ?_ ?_)))
    (occurAll_moves _ _)
  · exact trimInStandby_of (.inl h)
  · intro _
    refine searchesInRound_of fun t' ht c g q hq => ?_
    dsimp only at ht
    split at ht
    · simp at ht
    · obtain rfl := TrimEngine.long.inj ht
      have : ∃ o dac p sigma info, (roundResult o t.round dac p sigma info).search = some q := by
        cases g
        · exact ⟨_, _, _, _, _, by simpa [tab, PerGain.get, roundAt] using hq⟩
        · exact ⟨_, _, _, _, _, by simpa [tab, PerGain.get, roundAt] using hq⟩
      obtain ⟨o, dac, p, sigma, info, ho⟩ := this
      exact roundResult_search ho

theorem longSample_moves (t : LongTrim) (x : Samples) (s : State) (h : s.trim.engine = .long t) :
    Moves s (longSample t x s) := by
  have busy : s.trim.engine ≠ .idle := by simp [h]
  unfold longSample
  dsimp only
  split
  · refine Quiet.moves (.trim _ s (trimInStandby_of (.inl busy)) fun hs => searchesInRound_of fun t' ht c g q hq => ?_)
    obtain rfl := TrimEngine.long.inj ht
    have : ∃ p, t.searches[c].get g = some p ∧ q.rounds = p.rounds := by
      cases g
      · exact addSample_rounds (by simpa [tab, PerGain.get] using hq)
      · exact addSample_rounds (by simpa [tab, PerGain.get] using hq)
    obtain ⟨p, hp, hr⟩ := this
    rw [hr]
    exact hs t h c g p hp
  · exact completeRound_moves _ s busy

theorem trimSample_moves (x : Samples) (s : State) : Moves s (trimSample x s) := by
  unfold trimSample
  split
  · exact .refl
  · next t h => exact longSample_moves t x s h
  · next m h => exact manualSample_moves m x s (by simp [h])

theorem sampleArrival_moves (x : Samples) (s : State) : Moves s (sampleArrival x s) := by
  unfold sampleArrival
  split
  · exact (((writeSample_moves x s).tail (.quiet (.primingTest _))).trans (occurAll_moves _ _)).trans
      (trimSample_moves x _)
  · exact .refl

theorem sampleWhen_moves (b : Bool) (x : Samples) (s : State) : Moves s (sampleWhen b x s) := by
  unfold sampleWhen
  split
  · exact sampleArrival_moves x s
  · exact .refl

/-! ## Leaving LOCKED -/

/-- The counts of the pipeline emptied, its rings, settings and marks kept. -/
theorem emptyCounts_quiet (s : State) : Quiet s (emptyCounts s) := by
  refine .pipe _ s rfl rfl (fun h c => ?_) (fun _ => ⟨Nat.zero_le _, fun c => ?_⟩)
  · simpa [tab] using h c
  · simp [tab]

theorem setInjState_quiet (x : InjState) (s : State) : Quiet s (setInjState x s) := .inj _ s id

theorem setScan_quiet (x : ScanState) (s : State) : Quiet s (setScan x s) := .integ _ s

theorem trimDeparture_moves (s : State) : Moves s (trimDeparture s) := by
  unfold trimDeparture
  split
  · exact .refl
  · exact abortLong_moves _ s
  · next m h =>
    have busy : s.trim.engine ≠ .idle := by simp [h]
    dsimp only
    split
    · exact (setManual_quiet _ s (.inr busy)).moves.tail (.quiet (.finishTrms _ _ _))
    · exact (setManual_quiet _ s (.inr busy)).moves

theorem clockDeparture_moves (s : State) : Moves s (clockDeparture s) :=
  ((((emptyCounts_quiet s).moves.tail (.quiet (.acqDeparture _))).tail (.quiet (setInjState_quiet _ _))).tail
    (.quiet (setScan_quiet _ _))).trans (trimDeparture_moves _)

theorem departIfLocked_moves (b : Bool) (s : State) : Moves s (departIfLocked b s) := by
  unfold departIfLocked
  split
  · exact clockDeparture_moves s
  · exact .refl

theorem phaseSlip_moves (s : State) : Moves s (phaseSlip s) := by
  unfold phaseSlip
  dsimp only
  split
  · exact .refl
  · exact (Quiet.lock _ s rfl).moves
  · exact ((Quiet.lock _ s rfl).moves.trans (occur_moves _ _ _)).trans (clockDeparture_moves _)

theorem clockLoss_moves (s : State) : Moves s (clockLoss s) := by
  unfold clockLoss
  split
  · exact ((((Quiet.timing _ s).moves.tail (.quiet (.lock _ _ rfl))).trans (occurIf_moves _ _ _ _)).trans
      (occurIf_moves _ _ _ _)).trans (departIfLocked_moves _ _)
  · exact .refl

/-! ## Timing-link frames -/

theorem clockAppears_moves (s : State) : Moves s (clockAppears s) := by
  unfold clockAppears
  split
  · exact .refl
  · exact (Quiet.timing _ s).moves.tail (.quiet (.lock _ _ rfl))

theorem badFrame_moves (s : State) : Moves s (badFrame s) := by
  have check := (Quiet.timing (fun t => { t with failCount := t.failCount + 1 }) s).moves.trans (occur_moves .tlCheck none _)
  unfold badFrame
  dsimp only
  split
  · exact (check.tail (.quiet (.timing _ _))).trans (occur_moves _ _ _)
  · exact check

theorem takeFrame_moves (good : Bool) (s : State) : Moves s (takeFrame good s) := by
  have taken := (Quiet.timing (fun t => { t with lastTaken := t.candidate }) s).moves
  unfold takeFrame
  dsimp only
  split
  · exact taken
  · exact taken.tail (.quiet (.timing _ _))
  · split
    · exact taken.tail (.quiet (.timing _ _))
    · exact taken.trans (badFrame_moves _)

theorem receiverFrame_moves (f : Byte) (s : State) : Moves s (receiverFrame f s) := by
  have advanced : Moves s (advanceCrossing (takeFrame (frameGood f) (clockAppears s))) :=
    ((clockAppears_moves s).trans (takeFrame_moves _ _)).tail (.quiet (.timing _ _))
  unfold receiverFrame
  dsimp only
  refine .tail (.tail ?_ (.quiet (.timing _ _))) (.quiet (.timing _ _))
  split
  · exact (advanced.tail (.quiet (.timing _ _))).trans (occurIf_moves _ _ _ _)
  · exact advanced

theorem lockTick_moves (starts : Bool) (s : State) : Moves s (lockTick starts s) := by
  unfold lockTick
  split
  · split
    · exact .refl
    · split
      · exact (Quiet.lock _ s rfl).moves
      · exact (Quiet.lock _ s rfl).moves
  · exact .refl
  · exact .refl

theorem expireGate_moves (c : Chan) (s : State) : Moves s (expireGate c s) := by
  unfold expireGate
  exact (((Quiet.integ _ s).moves.trans (occurIf_moves _ _ _ _)).trans (occurIf_moves _ _ _ _)).trans
    (occurIf_moves _ _ _ _)

theorem scanTick_moves (s : State) : Moves s (scanTick s) := by
  unfold scanTick
  split
  · exact .refl
  · split
    · exact (Quiet.integ _ s).moves
    · exact (setScan_quiet _ s).moves
  · split
    · exact expireGate_moves _ s
    · exact (setScan_quiet _ s).moves

/-- One pulse record missed: MISSED counts and CAL_MISSED latches (R171). -/
def missPulse (s : State) : State := occur .calMissed none (tally (fun c => { c with missed := c.missed + 1 }) s)

theorem missPulse_moves (s : State) : Moves s (missPulse s) := by
  have counted : Quiet s (tally (fun c => { c with missed := c.missed + 1 }) s) := .tally _ s fun _ h => h
  exact counted.moves.trans (occur_moves _ _ _)

/-- The pulse records that a crossing arrival does not expire. -/
def keepUnexpired (s : State) : State :=
  s.mapInj fun i => { i with pending := i.pending.filter fun p => !expired (lookBack s.acq) s.timing.serial p }

theorem expirePulses_eq (s : State) :
    expirePulses s =
      (s.inj.pending.filter (expired (lookBack s.acq) s.timing.serial)).foldl (fun s _ => missPulse s)
        (keepUnexpired s) := rfl

theorem expirePulses_moves (s : State) : Moves s (expirePulses s) := by
  rw [expirePulses_eq]
  have kept : Quiet s (keepUnexpired s) := .inj _ s fun h => (List.length_filter_le _ _).trans h
  exact kept.moves.trans (foldl_moves _ (fun s _ => missPulse_moves s) _ _)

/-- The INJ counts of masked channels, with rings, settings and the other counts kept. -/
theorem markInjected_quiet (mask : ChanMask) (s : State) : Quiet s (markInjected mask s) := by
  refine .pipe _ s rfl rfl (fun h c => ?_) (fun h => ⟨h.1, fun c => ?_⟩)
  · have := h c
    simp only [tab, State.mapPipe_pipe, Fin.getElem_fin, Vector.getElem_ofFn]
    split <;> exact this
  · have := h.2 c
    simp only [tab, State.mapPipe_pipe, Fin.getElem_fin, Vector.getElem_ofFn]
    split <;> exact this

theorem firePulse_moves (k : Nat) (s : State) : Moves s (firePulse k s) := by
  unfold firePulse
  dsimp only
  refine .trans (.tail (markInjected_quiet _ s).moves (.quiet (.inj _ _ fun h => ?_))) (occurIf_moves _ _ _ _)
  have same : (markInjected s.inj.mask s).inj = s.inj := rfl
  rw [same] at h ⊢
  dsimp only
  split
  · exact h
  · next notFull => simp at notFull ⊢; omega

theorem fireDue_moves (s : State) : Moves s (fireDue s) := by
  unfold fireDue
  split
  · exact .refl
  · exact .refl
  · split
    · exact firePulse_moves _ s
    · exact .refl
  · split
    · exact firePulse_moves _ s
    · exact .refl

theorem pulseRequest_moves (before : InjState) (s : State) : Moves s (pulseRequest before s) := by
  have train := fun first => (Quiet.inj (fun i => { i with train := i.train + 1, state := .delaying first }) s id).moves
  cases before with
  | disarmed => exact .refl
  | armed =>
    unfold pulseRequest
    dsimp only
    split
    · exact (train _).trans (firePulse_moves _ _)
    · exact train _
  | delaying next => exact occur_moves _ _ s
  | firing next fired => exact occur_moves _ _ s

theorem stallTick_moves (finds : Bool) (s : State) : Moves s (stallTick finds s) := by
  unfold stallTick
  exact (Quiet.tx _ s rfl id (.inl rfl)).moves.trans (occurIf_moves _ _ _ _)

theorem frameAct_moves (x : FrameContext) (a : FrameAct) (s : State) : Moves s (frameAct x a s) := by
  cases a with
  | lock => exact lockTick_moves _ s
  | gate => exact scanTick_moves s
  | expire => exact expirePulses_moves s
  | fire => exact fireDue_moves s
  | request =>
    show Moves s (if _ then _ else _)
    split
    · exact pulseRequest_moves _ s
    · exact .refl
  | accept =>
    show Moves s (if _ then _ else _)
    split
    · exact .single (.accept _ s)
    · exact .refl
  | stall => exact stallTick_moves _ s

theorem timingFrame_moves (f : Byte) (s : State) : Moves s (timingFrame f s) := by
  unfold timingFrame
  exact ((receiverFrame_moves f s).trans (foldl_moves _ (fun s a => frameAct_moves _ a s) _ _)).tail (.quiet (.index _ _))

theorem frameWhen_moves (b : Bool) (f : Byte) (s : State) : Moves s (frameWhen b f s) := by
  unfold frameWhen
  split
  · exact timingFrame_moves f s
  · exact .refl

/-! ## The converters and the outbound link -/

theorem converterPulse_moves (c : Chan) (s : State) : Moves s (converterPulse c s) := by
  unfold converterPulse
  split
  · split
    · exact (Quiet.integ _ s).moves
    · exact .refl
  · exact .refl
  · exact .refl

theorem creditFrame_moves (w : LinkWord) (s : State) : Moves s (creditFrame w s) := by
  unfold creditFrame
  split
  · exact .refl
  · split
    · exact (Quiet.tx _ s rfl (fun _ => Nat.min_le_left _ _) (.inl rfl)).moves.trans (occurIf_moves _ _ _ _)
    · exact occur_moves _ _ s

theorem beginBlock_moves (s : State) : Moves s (beginBlock s) := by
  unfold beginBlock
  exact (Quiet.tx _ s rfl (fun h => (Nat.sub_le _ _).trans h) (.inr rfl)).moves.tail (.quiet (.tally _ _ fun _ h => h))

theorem sendIdle_moves (s : State) : Moves s (sendIdle s) := (Quiet.tx _ s rfl id (.inl rfl)).moves

end Sys2Proof.Machine
end


section
/-!
The execution of every request is a chain of changes and then a reply, or the wait for one.
-/

namespace Sys2Proof.Machine

/-- What the execution of a request leaves: a chain of changes, and the port sending a reply or held by the request, with no
rset left that is complete already (R49, R194). -/
def Answered (s t : State) : Prop :=
  ∃ (u : State) (x : Execution) (l : List (List Byte)), Moves s u ∧
    t = u.mapCtl (fun c => { c with sent := l, executing := x }) ∧ x ≠ .none ∧
    ∀ tag b, x = .rset tag b → u.tx.begun.isSome = true ∨ b = true

theorem Answered.reply {s u : State} (tag : Byte) (st : Status) (p : List Byte) (m : Moves s u) :
    Answered s (answer tag st p u) :=
  ⟨u, _, _, m, rfl, by simp, by simp⟩

theorem Answered.read (tag : Byte) (st : Status) (p : List Byte) (s : State) : Answered s (answer tag st p s) :=
  .reply tag st p .refl

theorem Answered.refused (r : Request) (st : Status) (s : State) : Answered s (refuse r st s) := .read _ _ _ s

theorem Answered.wrote {s u : State} (tag : Byte) (st : Status) (p : List Byte) (h : Quiet s u) :
    Answered s (answer tag st p u) := .reply tag st p h.moves

/-- The port is held by a trms or by a cclr whose reply is not formed yet. -/
theorem Answered.held {s u : State} (x : Execution) (m : Moves s u) (h : x ≠ .none) (hr : ∀ tag b, x ≠ .rset tag b) :
    Answered s (u.mapCtl fun c => { c with executing := x }) :=
  ⟨u, x, u.ctl.sent, m, rfl, h, fun tag b e => absurd e (hr tag b)⟩

variable (r : Request) (s : State)

/-! ## Conditions and status -/

theorem cmapBody_answered : Answered s (cmapBody r s) := by
  unfold cmapBody
  split
  · exact .read _ _ _ s
  · split
    · exact .refused r _ s
    · exact .read _ _ _ s
  · split
    · exact .wrote _ _ _ (.conds _ s rfl)
    · exact .refused r _ s
    · exact .refused r _ s
    · exact .refused r _ s
  · exact .refused r _ s

theorem clearNamed_quiet (m : Nat) (s : State) : Quiet s (changeConds (CondTable.clearNamed m) s) :=
  .conds (CondTable.clearNamed m) s (by rw [CondTable.clearNamed])

theorem cclrBody_answered : Answered s (cclrBody r s) := by
  unfold cclrBody
  split
  · dsimp only
    split
    · exact .refused r _ s
    · exact .held _ (clearNamed_quiet _ s).moves (by simp) (by simp)
  · exact .refused r _ s

theorem answerOk_mapFreeIndex (p : List Byte) (f : Nat → Nat) :
    (answerOk r p s).mapFreeIndex f = answer r.tag .ok p (s.mapFreeIndex f) := by
  simp only [answerOk, answer, State.mapCtl, State.mapFreeIndex]

theorem condBody_answered : Answered s (condBody r s) := by
  have indexed : ∀ p, Answered s ((answerOk r p s).mapFreeIndex (· + 25)) := by
    intro p
    rw [answerOk_mapFreeIndex]
    exact .wrote _ _ _ (.index _ s)
  unfold condBody
  dsimp only
  split
  · exact indexed _
  · split
    · exact .refused r _ s
    · exact indexed _
  · exact .refused r _ s

theorem clearCounters_moves : Moves s (clearCounters s) :=
  (Quiet.tally (fun _ => Counters.zero) s fun _ _ => rfl).moves.tail (.quiet (.queue _ _ rfl rfl rfl id))

theorem cntrBody_answered : Answered s (cntrBody r s) := by
  unfold cntrBody
  dsimp only
  split
  · exact .read _ _ _ s
  · split
    · exact .refused r _ s
    · exact .read _ _ _ s
    · exact .reply _ _ _ (clearCounters_moves s)
  · exact .refused r _ s

theorem statBody_answered : Answered s (statBody r s) := by
  unfold statBody
  split
  · exact .read _ _ _ s
  · exact .refused r _ s

theorem idntBody_answered : Answered s (idntBody r s) := by
  unfold idntBody
  split
  · exact .read _ _ _ s
  · exact .refused r _ s

theorem unknownBody_answered : Answered s (unknownBody r s) := .refused r _ s

/-! ## The Readout List -/

/-- An edit of the staged copy within its capacity. -/
theorem editStaged_quiet (f : List Entry → List Entry)
    (h : s.list.staged.length ≤ 32 → (f s.list.staged).length ≤ 32) : Quiet s (editStaged f s) :=
  .list _ s fun staged active => ⟨h staged, active⟩

theorem applyCommit_quiet : Quiet s (applyCommit s) := .list _ s fun staged _ => ⟨staged, staged⟩

theorem lclrBody_answered : Answered s (lclrBody r s) := by
  unfold lclrBody
  split
  · split
    · exact .refused r _ s
    · exact .wrote _ _ _ (editStaged_quiet s _ (by simp))
  · exact .refused r _ s

theorem lappBody_answered : Answered s (lappBody r s) := by
  unfold lappBody
  split
  · split
    · exact .refused r _ s
    · split
      · exact .refused r _ s
      · split
        · exact .refused r _ s
        · next room =>
          have room : s.list.staged.length < 32 := Nat.not_le.1 room
          exact .wrote _ _ _ (editStaged_quiet s _ (by simp; omega))
  · exact .refused r _ s

theorem linsBody_answered : Answered s (linsBody r s) := by
  unfold linsBody
  split
  · split
    · exact .refused r _ s
    · split
      · split
        · exact .refused r _ s
        · next room =>
          have room : s.list.staged.length < 32 := Nat.not_le.1 room
          exact .wrote _ _ _ (editStaged_quiet s _ (by simp; omega))
      · exact .refused r _ s
      · exact .refused r _ s
      · exact .refused r _ s
  · exact .refused r _ s

theorem lremBody_answered : Answered s (lremBody r s) := by
  unfold lremBody
  split
  · split
    · exact .refused r _ s
    · split
      · exact .wrote _ _ _ (editStaged_quiet s _ (by simp; omega))
      · exact .refused r _ s
  · exact .refused r _ s

theorem lrepBody_answered : Answered s (lrepBody r s) := by
  unfold lrepBody
  split
  · split
    · exact .refused r _ s
    · split
      · exact .refused r _ s
      · split
        · exact .wrote _ _ _ (editStaged_quiet s _ (by simp))
        · exact .refused r _ s
  · exact .refused r _ s

theorem lrdsBody_answered : Answered s (lrdsBody r s) := by
  unfold lrdsBody
  split
  · split
    · extract_lets copy
      split
      · exact .read _ _ _ s
      · exact .refused r _ s
    · exact .refused r _ s
  · exact .refused r _ s

theorem lcomBody_answered : Answered s (lcomBody r s) := by
  unfold lcomBody
  split
  · split
    · exact .wrote _ _ _ (applyCommit_quiet s)
    · exact .wrote _ _ _ (.list _ s fun staged active => ⟨staged, active⟩)
  · exact .refused r _ s

/-! ## Filter sets, the transmitter's settings and the injector -/

theorem inStandby_iff : inStandby s = true ↔ s.acq.state = .standby := by simp [inStandby]

/-- A request that passed the check for STANDBY found it. -/
theorem standby_of_check {s : State} (h : ¬(!inStandby s) = true) : s.acq.state = .standby := by
  simpa [inStandby] using h

theorem filtBody_answered : Answered s (filtBody r s) := by
  unfold filtBody
  split
  · exact .refused r _ s
  · split
    · exact .refused r _ s
    · exact .read _ _ _ s
  · split
    · exact .refused r _ s
    · next standby =>
      split
      · split
        · exact .refused r _ s
        · split
          · exact .wrote _ _ _ (.filt _ s (standby_of_check standby))
          · exact .refused r _ s
      · exact .refused r _ s
      · exact .refused r _ s
      · exact .refused r _ s

theorem srciBody_answered : Answered s (srciBody r s) := by
  unfold srciBody
  split
  · exact .read _ _ _ s
  · exact .wrote _ _ _ (.tx _ s rfl id (.inl rfl))
  · exact .refused r _ s

theorem stlmBody_answered : Answered s (stlmBody r s) := by
  unfold stlmBody
  split
  · exact .read _ _ _ s
  · split
    · exact .refused r _ s
    · exact .wrote _ _ _ (.tx _ s rfl id (.inl rfl))
  · exact .refused r _ s

theorem injsBody_answered : Answered s (injsBody r s) := by
  unfold injsBody
  split
  · exact .read _ _ _ s
  · split
    · exact .refused r _ s
    · split
      · exact .refused r _ s
      · exact .wrote _ _ _ (.inj _ s id)
  · exact .refused r _ s

theorem injaBody_answered : Answered s (injaBody r s) := by
  unfold injaBody
  split
  · split
    · exact .refused r _ s
    · dsimp only
      split
      · exact .wrote _ _ _ (setInjState_quiet _ s)
      · exact .read _ _ _ s
  · exact .refused r _ s

theorem injdBody_answered : Answered s (injdBody r s) := by
  unfold injdBody
  split
  · exact .wrote _ _ _ (setInjState_quiet _ s)
  · exact .refused r _ s

theorem injfBody_answered : Answered s (injfBody r s) := by
  unfold injfBody
  split
  · split
    · exact .refused r _ s
    · exact .wrote _ _ _ (.inj _ s id)
    · exact .refused r _ s
    · exact .refused r _ s
  · exact .refused r _ s

/-! ## Accepts and pedestals -/

theorem ruleBody_answered : Answered s (ruleBody r s) := by
  unfold ruleBody
  split
  · exact .read _ _ _ s
  · split
    · exact .wrote _ _ _ (.queue _ s rfl rfl rfl fun _ => Nat.zero_le _)
    · exact .refused r _ s
  · exact .refused r _ s

theorem throttleAgainst_moves : Moves s (throttleAgainst s) := by
  unfold throttleAgainst
  split
  · exact (Quiet.throttleRelax s).moves
  · split
    · exact (Quiet.throttleOn s).moves
    · exact .refl

theorem busyBody_answered : Answered s (busyBody r s) := by
  unfold busyBody
  split
  · exact .read _ _ _ s
  · split
    · exact .refused r _ s
    · split
      · exact .reply _ _ _ (.trans (Quiet.queue _ s rfl rfl rfl id).moves (throttleAgainst_moves _))
      · exact .refused r _ s
  · exact .refused r _ s

theorem trksBody_answered : Answered s (trksBody r s) := by
  unfold trksBody
  split
  · split
    · exact .refused r _ s
    · exact .read _ _ _ s
  · split
    · exact .refused r _ s
    · exact .wrote _ _ _ (.ped _ s)
  · exact .refused r _ s

theorem pedlBody_answered : Answered s (pedlBody r s) := by
  unfold pedlBody
  split
  · exact .read _ _ _ s
  · split
    · exact .refused r _ s
    · dsimp only
      split
      · exact .reply _ _ _ ((Quiet.ped _ s).moves.trans (occur_moves _ _ _))
      · exact .wrote _ _ _ (.ped _ s)
  · exact .refused r _ s

/-! ## Trims -/

theorem beginLong_moves (mask : ChanMask) (sel : PerGain Bool) (standby : s.acq.state = .standby) :
    Moves s (beginLong mask sel s) := by
  unfold beginLong
  refine .tail (Quiet.trim _ s (fun _ => trimInStandby_of_standby standby) fun _ => ?_).moves (.quiet (.dacs _ _ rfl))
  refine searchesInRound_of fun t ht c g q _ => ?_
  obtain rfl := TrimEngine.long.inj ht
  exact Nat.zero_le _

theorem trmlBody_answered : Answered s (trmlBody r s) := by
  unfold trmlBody
  split
  · split
    · exact .refused r _ s
    · split
      · exact .refused r _ s
      · next standby =>
        split
        · exact .refused r _ s
        · dsimp only
          split
          · exact .refused r _ s
          · split
            · exact .refused r _ s
            · exact .reply _ _ _ (beginLong_moves s _ _ (standby_of_check standby))
  · exact .refused r _ s

theorem trmrBody_answered : Answered s (trmrBody r s) := by
  unfold trmrBody
  split
  · exact .read _ _ _ s
  · exact .read _ _ _ s
  · exact .refused r _ s

theorem trenBody_answered : Answered s (trenBody r s) := by
  unfold trenBody
  split
  · split
    · exact .refused r _ s
    · next standby =>
      split
      · exact .refused r _ s
      · split
        · split
          · exact .wrote _ _ _ (setManual_quiet _ s (.inl (standby_of_check standby)))
          · exact .refused r _ s
        · exact .refused r _ s
        · exact .refused r _ s
        · exact .refused r _ s
  · exact .refused r _ s

theorem trstBody_answered : Answered s (trstBody r s) := by
  unfold trstBody
  split
  · split
    · next m manual =>
      exact .reply _ _ _ ((Quiet.dacs _ s rfl).moves.tail
        (.quiet (setManual_quiet _ (setDac m.chan m.gain _ s) (.inr (by simp [setDac, manual])))))
    · exact .refused r _ s
    · exact .refused r _ s
  · exact .refused r _ s

theorem trmsBody_answered : Answered s (trmsBody r s) := by
  unfold trmsBody
  split
  · split
    · next m manual =>
      split
      · exact .refused r _ s
      · exact .held _ (setManual_quiet { m with measuring := some { count := 0, sum := 0 } } s (.inr (by simp [manual]))).moves
          (by simp) (by simp)
    · exact .refused r _ s
    · exact .refused r _ s
  · exact .refused r _ s

theorem trexBody_answered : Answered s (trexBody r s) := by
  unfold trexBody
  split
  · split
    · next m manual =>
      have left : Moves s (s.mapTrim fun u => { u with engine := .idle }) :=
        (trimIdle_quiet (fun u => u.gains) s).moves
      dsimp only
      split
      · exact .reply _ _ _ (left.tail (.quiet (.ped _ _)))
      · exact .reply _ _ _ left
    · exact .refused r _ s
    · exact .refused r _ s
  · exact .refused r _ s

/-! ## Front End, pipeline and timing -/

theorem chanBody_answered : Answered s (chanBody r s) := by
  unfold chanBody
  split
  · split
    · exact .refused r _ s
    · exact .read _ _ _ s
  · split
    · exact .refused r _ s
    · next standby =>
      split
      · exact .refused r _ s
      · split
        · exact .wrote _ _ _ (.chanRecs _ s (standby_of_check standby))
        · exact .refused r _ s
        · exact .refused r _ s
        · exact .refused r _ s
  · exact .refused r _ s

theorem pipeBody_answered : Answered s (pipeBody r s) := by
  unfold pipeBody
  split
  · exact .read _ _ _ s
  · split
    · exact .refused r _ s
    · next standby =>
      split
      · exact .refused r _ s
      · exact .wrote _ _ _ (.pipeSettings _ s (standby_of_check standby) rfl rfl)
  · exact .refused r _ s

theorem frzeBody_answered : Answered s (frzeBody r s) := by
  unfold frzeBody
  split
  · exact .read _ _ _ s
  · refine .wrote _ _ _ (.pipe _ s rfl rfl (fun h c => ?_) (fun h => ⟨h.1, fun c => ?_⟩))
    · have := h c
      simp only [tab, State.mapPipe_pipe, Fin.getElem_fin, Vector.getElem_ofFn]
      split <;> exact this
    · have := h.2 c
      simp only [tab, State.mapPipe_pipe, Fin.getElem_fin, Vector.getElem_ofFn]
      split <;> exact this
  · exact .refused r _ s

theorem thawBody_answered : Answered s (thawBody r s) := by
  unfold thawBody
  split
  · refine .wrote _ _ _ (.pipe _ s rfl rfl (fun h c => ?_) (fun h => ⟨h.1, fun c => ?_⟩))
    · have := h c
      simp only [tab, State.mapPipe_pipe, Fin.getElem_fin, Vector.getElem_ofFn]
      split <;> exact this
    · have := h.2 c
      simp only [tab, State.mapPipe_pipe, Fin.getElem_fin, Vector.getElem_ofFn]
      split
      · exact Nat.zero_le _
      · exact this
  · exact .refused r _ s

theorem peekBody_answered : Answered s (peekBody r s) := by
  unfold peekBody
  split
  · split
    · split
      · exact .refused r _ s
      · dsimp only
        split
        · exact .read _ _ _ s
        · exact .refused r _ s
    · exact .refused r _ s
  · exact .refused r _ s

theorem turnBody_answered : Answered s (turnBody r s) := by
  unfold turnBody
  split
  · exact .read _ _ _ s
  · split
    · exact .refused r _ s
    · split
      · exact .refused r _ s
      · exact .wrote _ _ _ (.timing _ s)
  · exact .refused r _ s

theorem applyClks_moves (n p : Nat) (standby : s.acq.state = .standby) : Moves s (applyClks n p s) := by
  unfold applyClks
  refine .trans (.tail (Quiet.pipeSettings _ s standby ?_ ?_).moves (.quiet (.clockSettings _ _ standby)))
    (departIfLocked_moves _ _)
  · split <;> rfl
  · split <;> rfl

theorem clksBody_answered : Answered s (clksBody r s) := by
  unfold clksBody
  split
  · exact .read _ _ _ s
  · split
    · exact .refused r _ s
    · next standby =>
      split
      · exact .refused r _ s
      · split
        · exact .reply _ _ _ (applyClks_moves s _ _ (standby_of_check standby))
        · exact .refused r _ s
        · exact .refused r _ s
        · exact .refused r _ s
  · exact .refused r _ s

/-! ## The slow integrator -/

theorem intsBody_answered : Answered s (intsBody r s) := by
  unfold intsBody
  split
  · exact .read _ _ _ s
  · split
    · exact .refused r _ s
    · split
      · exact .refused r _ s
      · split
        · exact .refused r _ s
        · exact .wrote _ _ _ (.integ _ s)
  · exact .refused r _ s

theorem intlBody_answered : Answered s (intlBody r s) := by
  unfold intlBody
  split
  · exact .read _ _ _ s
  · exact .wrote _ _ _ (.integ _ s)
  · exact .refused r _ s

theorem intrBody_answered : Answered s (intrBody r s) := by
  unfold intrBody
  split
  · exact .wrote _ _ _ (.integ _ s)
  · exact .wrote _ _ _ (.integ _ s)
  · exact .refused r _ s

theorem intxBody_answered : Answered s (intxBody r s) := by
  unfold intxBody
  split
  · exact .wrote _ _ _ (setScan_quiet _ s)
  · exact .refused r _ s

/-! ## Acquisition -/

/-- With no channel failing the check of R41, every enabled channel's filter sets fit the window. -/
theorem firstFilterFault_none {s : State} (h : firstFilterFault s = none) : FiltersFit s := by
  intro c enabled
  have fault : filterFault s c = none := by
    have := List.findSome?_eq_none_iff.1 h c (by simp [allChans])
    simpa using this
  unfold filterFault at fault
  simp only [enabled, if_true] at fault
  split at fault
  · simp at fault
  · split at fault
    · simp at fault
    · exact ⟨by omega, by omega⟩

/-- Outside long trims and manual trim mode the Trim Engine is IDLE. -/
theorem engine_idle {s : State} (long : inLong s = false) (manual : inManual s = false) : s.trim.engine = .idle := by
  unfold inLong inManual at *
  cases h : s.trim.engine <;> simp_all

theorem strtBody_answered (manual : inManual s = false) : Answered s (strtBody r s) := by
  unfold strtBody
  split
  · split
    · exact .read _ _ _ s
    · next standby =>
      split
      · exact .read _ _ _ s
      · split
        · exact .read _ _ _ s
        · next long =>
          split
          · exact .read _ _ _ s
          · next fits =>
            exact .wrote _ _ _ (.startRun s (standby_of_check standby) (engine_idle (by simpa using long) manual)
              (firstFilterFault_none fits))
  · exact .refused r _ s

theorem stopBody_answered : Answered s (stopBody r s) := by
  unfold stopBody
  split
  · exact .reply _ _ _ (.single (.stopRun s))
  · exact .refused r _ s

theorem resetTrim_moves : Moves s (resetTrim s) := by
  unfold resetTrim
  split
  · exact .refl
  · exact abortLong_moves _ s
  · exact (trimIdle_quiet (fun u => u.gains) s).moves

theorem softReset_moves : Moves s (softReset s) := by
  unfold softReset
  exact (((((((emptyCounts_quiet s).moves.tail (.reset _)).trans (resetTrim_moves _)).tail (.quiet (.ped _ _))).tail
    (.quiet (.inj _ _ fun _ => Nat.zero_le _))).tail (.quiet (setScan_quiet _ _))).tail
    (.quiet (.tally _ _ fun _ _ => rfl)))

end Sys2Proof.Machine
end


section
/-!
The meaning of every command, and with it one induction for the rules of the whole part: what each change, the completion of
a block, power-on and the port's own changes keep, every step keeps.
-/

namespace Sys2Proof.Machine

/-! ## rset and the requests of frames -/

theorem occur_begun (c : Cond) (ev : Option EventNum) (s : State) : (occur c ev s).tx.begun = s.tx.begun := by
  rw [(occur_only c ev s).tx]

theorem enterStandby_begun (s : State) : (enterStandby s).tx.begun = s.tx.begun := by
  rw [(enterStandby_frame s).tx]

theorem resetQueue_begun (s : State) : (resetQueue s).tx.begun = s.tx.begun := by
  unfold resetQueue
  rw [(throttleOff_only _).tx]
  rfl

theorem resetTrim_begun (s : State) : (resetTrim s).tx.begun = s.tx.begun := by
  unfold resetTrim
  split
  · rfl
  · exact occur_begun _ _ _
  · rfl

/-- rset keeps the block begun, so that it can be finished (R51). -/
theorem softReset_begun (s : State) : (softReset s).tx.begun = s.tx.begun :=
  calc (softReset s).tx.begun
    _ = (resetTrim (enterStandby (resetReadout (resetQueue (emptyCounts s))))).tx.begun := rfl
    _ = (enterStandby (resetReadout (resetQueue (emptyCounts s)))).tx.begun := resetTrim_begun _
    _ = (resetQueue (emptyCounts s)).tx.begun := enterStandby_begun _
    _ = s.tx.begun := resetQueue_begun _

theorem rsetBody_answered (r : Request) (s : State) : Answered s (rsetBody r s) := by
  unfold rsetBody
  split
  · dsimp only
    split
    · exact .reply _ _ _ (softReset_moves s)
    · next open_ =>
      refine ⟨softReset s, .rset r.tag s.aq.throttle, _, softReset_moves s, rfl, by simp, fun tag b e => ?_⟩
      obtain ⟨rfl, rfl⟩ := Execution.rset.inj e
      rw [softReset_begun]
      cases hb : s.tx.begun <;> cases ht : s.aq.throttle <;> simp_all
  · exact .refused r _ s

/-- A request that manual trim mode refuses is answered, and so is one that reaches its body. -/
theorem takeRequest_answered {b : Bool} {r : Request} {body : Request → State → State} {s : State}
    (h : b = true ∨ inManual s = false → Answered s (body r s)) : Answered s (takeRequest b r body s) := by
  unfold takeRequest
  split
  · exact .refused r _ s
  · next taken => exact h (by cases b <;> simp_all)

/-! ## Meanings -/

/-- What a command means: power-on, an event with its effect, one of the events that touch the port too, a request, or nothing.
Only requests, and an unknown command under the name of a known one, are what a frame can ask for. -/
inductive Meaning (c : Instr) : Prop
  | power (event : c.request = none) (h : ∀ s, exec c s = .next (powerOn s))
  | event (event : c.request = none) (effect : State → State) (h : ∀ s, exec c s = .next (duringEvent effect s))
      (moves : ∀ s, Moves s (effect s))
  | frameBoundary (event : c.request = none)
      (h : ∀ s, exec c s = .next (duringEvent (fun s => completeRset (frameBoundary s)) s))
  | blockCompletion (event : c.request = none)
      (h : ∀ s, exec c s = .next (duringEvent (fun s => completeRset (completeBlock s)) s))
  | rsetComplete (event : c.request = none) (h : ∀ s, exec c s = .next (duringEvent completeRset s))
  | bytes (event : c.request = none) (bs : List Byte) (h : ∀ s, exec c s = .next (receiveBytes bs s))
  | timeout (event : c.request = none) (h : ∀ s, exec c s = .next (duringEvent interByteTimeout s))
  | request (name : BitVec 32) (b : Bool) (r : Request) (body : Request → State → State)
      (h : ∀ s, exec c s = .next (serve name b r body s)) (run : ∀ s, runRequest c s = takeRequest b r body s)
      (answered : ∀ s, b = true ∨ inManual s = false → Answered s (body r s))
  | nothing (h : ∀ s, exec c s = .next s) (answered : ∀ s, Answered s (runRequest c s))

/-- A request whose body answers in every state. -/
theorem Meaning.answers {c : Instr} (name : BitVec 32) (b : Bool) (r : Request) (body : Request → State → State)
    (h : ∀ s, exec c s = .next (serve name b r body s)) (run : ∀ s, runRequest c s = takeRequest b r body s)
    (answered : ∀ r s, Answered s (body r s)) : Meaning c :=
  .request name b r body h run fun s _ => answered r s

theorem meaning (c : Instr) : Meaning c := by
  cases c with
  | powerOn => exact .power rfl fun _ => rfl
  | sampleArrival x => exact .event rfl _ (fun _ => rfl) (sampleArrival_moves x)
  | primingComplete x => exact .event rfl _ (fun _ => rfl) fun s => sampleWhen_moves _ x s
  | blockComplete x => exact .event rfl _ (fun _ => rfl) fun s => sampleWhen_moves _ x s
  | timingFrame f => exact .event rfl _ (fun _ => rfl) (timingFrame_moves f)
  | linkLock f => exact .event rfl _ (fun _ => rfl) fun s => frameWhen_moves _ f s
  | linkLoss f => exact .event rfl _ (fun _ => rfl) fun s => frameWhen_moves _ f s
  | delayExpiry f => exact .event rfl _ (fun _ => rfl) fun s => frameWhen_moves _ f s
  | pulseFiring f => exact .event rfl _ (fun _ => rfl) fun s => frameWhen_moves _ f s
  | pendingPulseExpiry f => exact .event rfl _ (fun _ => rfl) fun s => frameWhen_moves _ f s
  | lockAcquired f => exact .event rfl _ (fun _ => rfl) fun s => frameWhen_moves _ f s
  | phaseSlip => exact .event rfl _ (fun _ => rfl) phaseSlip_moves
  | crossingClockLoss => exact .event rfl _ (fun _ => rfl) clockLoss_moves
  | settleExpiry f => exact .event rfl _ (fun _ => rfl) fun s => frameWhen_moves _ f s
  | converterPulse c => exact .event rfl _ (fun _ => rfl) (converterPulse_moves c)
  | gateExpiry f => exact .event rfl _ (fun _ => rfl) fun s => frameWhen_moves _ f s
  | stallTimeout f => exact .event rfl _ (fun _ => rfl) fun s => frameWhen_moves _ f s
  | creditFrame w => exact .event rfl _ (fun _ => rfl) (creditFrame_moves w)
  | frameBoundary => exact .frameBoundary rfl fun _ => rfl
  | blockCompletion => exact .blockCompletion rfl fun _ => rfl
  | recordStart => exact .event rfl _ (fun _ => rfl) fun s => .single (.recordStart s)
  | entryCompletion => exact .event rfl _ (fun _ => rfl) fun s => .single (.completeEntry s)
  | fragmentAppend => exact .event rfl _ (fun _ => rfl) fun s => .single (.fragmentAppend s)
  | drainComplete => exact .event rfl _ (fun _ => rfl) fun s => .single (.drainTest s)
  | trimRoundComplete x => exact .event rfl _ (fun _ => rfl) fun s => sampleWhen_moves _ x s
  | manualSettleExpiry x => exact .event rfl _ (fun _ => rfl) fun s => sampleWhen_moves _ x s
  | trmsComplete x => exact .event rfl _ (fun _ => rfl) fun s => sampleWhen_moves _ x s
  | rsetComplete => exact .rsetComplete rfl fun _ => rfl
  | requestFrame bs => exact .bytes rfl bs fun _ => rfl
  | interByteTimeout => exact .timeout rfl fun _ => rfl
  | unknownCommand name r =>
    cases known : isCommandName name with
    | true =>
      exact .nothing (fun s => by simp [exec, execUnknownCommand, known]) fun s =>
        takeRequest_answered fun _ => unknownBody_answered r s
    | false =>
      exact .answers _ _ r _ (fun s => by simp [exec, execUnknownCommand, known]; rfl) (fun _ => rfl) unknownBody_answered
  | chan r => exact .answers _ _ r _ (fun _ => rfl) (fun _ => rfl) chanBody_answered
  | pipe r => exact .answers _ _ r _ (fun _ => rfl) (fun _ => rfl) pipeBody_answered
  | frze r => exact .answers _ _ r _ (fun _ => rfl) (fun _ => rfl) frzeBody_answered
  | thaw r => exact .answers _ _ r _ (fun _ => rfl) (fun _ => rfl) thawBody_answered
  | peek r => exact .answers _ _ r _ (fun _ => rfl) (fun _ => rfl) peekBody_answered
  | turn r => exact .answers _ _ r _ (fun _ => rfl) (fun _ => rfl) turnBody_answered
  | clks r => exact .answers _ _ r _ (fun _ => rfl) (fun _ => rfl) clksBody_answered
  | strt r =>
    exact .request _ _ r _ (fun _ => rfl) (fun _ => rfl) fun s h => strtBody_answered r s (h.resolve_left Bool.false_ne_true)
  | stop r => exact .answers _ _ r _ (fun _ => rfl) (fun _ => rfl) stopBody_answered
  | rset r => exact .answers _ _ r _ (fun _ => rfl) (fun _ => rfl) rsetBody_answered
  | rule r => exact .answers _ _ r _ (fun _ => rfl) (fun _ => rfl) ruleBody_answered
  | busy r => exact .answers _ _ r _ (fun _ => rfl) (fun _ => rfl) busyBody_answered
  | trks r => exact .answers _ _ r _ (fun _ => rfl) (fun _ => rfl) trksBody_answered
  | pedl r => exact .answers _ _ r _ (fun _ => rfl) (fun _ => rfl) pedlBody_answered
  | trml r => exact .answers _ _ r _ (fun _ => rfl) (fun _ => rfl) trmlBody_answered
  | trmr r => exact .answers _ _ r _ (fun _ => rfl) (fun _ => rfl) trmrBody_answered
  | tren r => exact .answers _ _ r _ (fun _ => rfl) (fun _ => rfl) trenBody_answered
  | trst r => exact .answers _ _ r _ (fun _ => rfl) (fun _ => rfl) trstBody_answered
  | trms r => exact .answers _ _ r _ (fun _ => rfl) (fun _ => rfl) trmsBody_answered
  | trex r => exact .answers _ _ r _ (fun _ => rfl) (fun _ => rfl) trexBody_answered
  | filt r => exact .answers _ _ r _ (fun _ => rfl) (fun _ => rfl) filtBody_answered
  | lclr r => exact .answers _ _ r _ (fun _ => rfl) (fun _ => rfl) lclrBody_answered
  | lapp r => exact .answers _ _ r _ (fun _ => rfl) (fun _ => rfl) lappBody_answered
  | lins r => exact .answers _ _ r _ (fun _ => rfl) (fun _ => rfl) linsBody_answered
  | lrem r => exact .answers _ _ r _ (fun _ => rfl) (fun _ => rfl) lremBody_answered
  | lrep r => exact .answers _ _ r _ (fun _ => rfl) (fun _ => rfl) lrepBody_answered
  | lrds r => exact .answers _ _ r _ (fun _ => rfl) (fun _ => rfl) lrdsBody_answered
  | lcom r => exact .answers _ _ r _ (fun _ => rfl) (fun _ => rfl) lcomBody_answered
  | srci r => exact .answers _ _ r _ (fun _ => rfl) (fun _ => rfl) srciBody_answered
  | stlm r => exact .answers _ _ r _ (fun _ => rfl) (fun _ => rfl) stlmBody_answered
  | injs r => exact .answers _ _ r _ (fun _ => rfl) (fun _ => rfl) injsBody_answered
  | inja r => exact .answers _ _ r _ (fun _ => rfl) (fun _ => rfl) injaBody_answered
  | injd r => exact .answers _ _ r _ (fun _ => rfl) (fun _ => rfl) injdBody_answered
  | injf r => exact .answers _ _ r _ (fun _ => rfl) (fun _ => rfl) injfBody_answered
  | ints r => exact .answers _ _ r _ (fun _ => rfl) (fun _ => rfl) intsBody_answered
  | intl r => exact .answers _ _ r _ (fun _ => rfl) (fun _ => rfl) intlBody_answered
  | intr r => exact .answers _ _ r _ (fun _ => rfl) (fun _ => rfl) intrBody_answered
  | intx r => exact .answers _ _ r _ (fun _ => rfl) (fun _ => rfl) intxBody_answered
  | cmap r => exact .answers _ _ r _ (fun _ => rfl) (fun _ => rfl) cmapBody_answered
  | cclr r => exact .answers _ _ r _ (fun _ => rfl) (fun _ => rfl) cclrBody_answered
  | cntr r => exact .answers _ _ r _ (fun _ => rfl) (fun _ => rfl) cntrBody_answered
  | cond r => exact .answers _ _ r _ (fun _ => rfl) (fun _ => rfl) condBody_answered
  | stat r => exact .answers _ _ r _ (fun _ => rfl) (fun _ => rfl) statBody_answered
  | idnt r => exact .answers _ _ r _ (fun _ => rfl) (fun _ => rfl) idntBody_answered

/-! ## The requests that frames ask for -/

theorem commandNames_request : ∀ e ∈ commandNames, ∀ r, (e.2 r).request = some r := by
  simp [commandNames, Instr.request]

theorem commandOf_request (f : Frame) : (commandOf f).request = some { tag := f.tag, payload := f.payload } := by
  cases known : isCommandName f.name with
  | false => rw [commandOf_unknown f known]; rfl
  | true =>
    obtain ⟨e, mem, -, h⟩ := commandOf_known f known
    rw [h, commandNames_request e mem]

theorem runRequest_answered (f : Frame) (s : State) : Answered s (runRequest (commandOf f) s) := by
  have asked := commandOf_request f
  cases meaning (commandOf f) with
  | request name b r body _ run answered =>
    rw [run]
    exact takeRequest_answered (answered s)
  | nothing _ answered => exact answered s
  | power event _ => simp [asked] at event
  | event event _ _ _ => simp [asked] at event
  | frameBoundary event _ => simp [asked] at event
  | blockCompletion event _ => simp [asked] at event
  | rsetComplete event _ => simp [asked] at event
  | bytes event _ _ => simp [asked] at event
  | timeout event _ => simp [asked] at event

theorem commandNames_exec : ∀ e ∈ commandNames, ∀ (r : Request) (s : State),
    exec (e.2 r) s = .next (duringEvent (fun s =>
      if portFree s then runRequest (e.2 r) s else receiveFrame { tag := r.tag, name := e.1, payload := r.payload } s) s) := by
  simp only [commandNames, List.forall_mem_cons, List.not_mem_nil, false_imp_iff, implies_true, and_true]
  and_intros
  all_goals exact fun _ _ => rfl

/-- The arrival of a frame's request is what the receiver does with the complete frame (R193, R194). -/
theorem exec_commandOf_eq (f : Frame) (s : State) : exec (commandOf f) s = .next (takeFound s (.complete f)) := by
  cases known : isCommandName f.name with
  | false =>
    rw [commandOf_unknown f known]
    simp only [exec, execUnknownCommand, known]
    rw [takeFound, commandOf_unknown f known]
    rfl
  | true =>
    obtain ⟨e, mem, name, h⟩ := commandOf_known f known
    rw [h, commandNames_exec e mem, takeFound, h, name]

/-! ## One induction for the rules of the part -/

/-- A rule that does not speak of the Control Port, kept by each change, the completion of a block and power-on. -/
structure Kept (P : State → Prop) : Prop where
  ctl : ∀ f s, P s → P (s.mapCtl f)
  change : ∀ s t, Change s t → P s → P t
  block : ∀ s, P s → P (completeBlock s)
  power : ∀ s, P s → P (powerOn s)

namespace Kept

variable {P : State → Prop} (k : Kept P)
include k

theorem moves {s t : State} (m : Moves s t) (h : P s) : P t := Moves.keeps k.change m h

theorem answered {s t : State} (a : Answered s t) (h : P s) : P t := by
  obtain ⟨u, x, l, m, rfl, -, -⟩ := a
  exact k.ctl _ _ (k.moves m h)

theorem answer (tag : Byte) (st : Status) (p : List Byte) (s : State) (h : P s) : P (answer tag st p s) := k.ctl _ s h

theorem completeRset (s : State) (h : P s) : P (completeRset s) := by
  unfold Machine.completeRset
  split
  · split
    · exact k.answer _ _ _ s h
    · exact h
  · exact h
  · exact h
  · exact h
  · exact h

theorem frameBoundary (s : State) (h : P s) : P (frameBoundary s) := by
  unfold Machine.frameBoundary
  split
  · exact h
  · exact k.ctl _ _ (k.moves (Quiet.tx _ s rfl id (.inl rfl)).moves h)
  · split
    · exact k.moves (beginBlock_moves s) h
    · exact k.moves (sendIdle_moves s) h

theorem interByteTimeout (s : State) (h : P s) : P (interByteTimeout s) := by
  unfold Machine.interByteTimeout
  split
  · exact h
  · exact k.moves (occur_moves _ _ _) (k.ctl _ _ h)

theorem receiveFrame (f : Frame) (s : State) (h : P s) : P (receiveFrame f s) := by
  unfold Machine.receiveFrame
  split
  · exact k.ctl _ _ h
  · exact k.moves (occur_moves _ _ _) h

theorem executeOldest (f : Frame) (rest : List Frame) (s : State) (h : P s) : P (executeOldest f rest s) := by
  have emptied : P (setBuffer [] (setExecuting .none s)) := k.ctl _ _ (k.ctl _ s h)
  exact k.ctl (fun c => { c with buffer := rest }) _ (k.answered (runRequest_answered f _) emptied)

theorem beforeEvent (s : State) (h : P s) : P (beforeEvent s) :=
  beforeEvent_keeps P (fun _ s => k.answer _ _ _ s) k.executeOldest (fun _ s => k.ctl _ s) s h

theorem takeFound (s : State) (f : Found) (h : P s) : P (takeFound s f) := by
  have before := k.beforeEvent s h
  cases f with
  | discarded => exact k.moves (occur_moves _ _ _) before
  | complete g =>
    show P (if _ then _ else _)
    split
    · exact k.answered (runRequest_answered g _) before
    · exact k.receiveFrame g _ before

theorem receiveBytes (bs : List Byte) (s : State) (h : P s) : P (receiveBytes bs s) := by
  have found : ∀ (l : List Found) s, P s → P (l.foldl Machine.takeFound s) := by
    intro l
    induction l with
    | nil => exact fun _ h => h
    | cons f t ih => exact fun s h => ih _ (k.takeFound s f h)
  have hunting : P (setReceiver none s) := k.ctl _ s h
  exact k.ctl (fun c => { c with receiver := _ }) _ (found _ _ hunting)

theorem serve {name : BitVec 32} {b : Bool} {r : Request} {body : Request → State → State}
    (ha : ∀ s, b = true ∨ inManual s = false → Answered s (body r s)) (s : State) (h : P s) :
    P (serve name b r body s) := by
  have before := k.beforeEvent s h
  show P (if _ then _ else _)
  split
  · exact k.answered (takeRequest_answered (ha _)) before
  · exact k.receiveFrame _ _ before

theorem idleTime (s : State) (h : P s) : P (idleTime s) := by
  unfold Machine.idleTime
  split
  · exact k.answer _ _ _ s h
  · exact k.ctl _ s h
  · exact k.executeOldest _ _ s h
  · exact h
  · exact k.executeOldest _ _ s h
  · exact h
  · exact h

/-- Every command completes, and keeps the rule. -/
theorem exec (c : Instr) (s : State) (h : P s) : ∃ t, exec c s = .next t ∧ P t := by
  have before := k.beforeEvent s h
  cases meaning c with
  | power _ e => exact ⟨_, e s, k.power s h⟩
  | event _ effect e m => exact ⟨_, e s, k.moves (m _) before⟩
  | frameBoundary _ e => exact ⟨_, e s, k.completeRset _ (k.frameBoundary _ before)⟩
  | blockCompletion _ e => exact ⟨_, e s, k.completeRset _ (k.block _ before)⟩
  | rsetComplete _ e => exact ⟨_, e s, k.completeRset _ before⟩
  | bytes _ bs e => exact ⟨_, e s, k.receiveBytes bs s h⟩
  | timeout _ e => exact ⟨_, e s, k.interByteTimeout _ before⟩
  | request name b r body e _ answered => exact ⟨_, e s, k.serve answered s h⟩
  | nothing e _ => exact ⟨_, e s, h⟩

/-- Every step keeps a rule that does not speak of the queue of commands either. -/
theorem step (pending : ∀ f s, P s → P (s.mapPending f)) {s t : State} (h : P s) (st : step s = .next t) : P t := by
  unfold Machine.step at st
  split at st
  · obtain rfl := Host.Outcome.next.inj st
    exact k.idleTime s h
  · next c rest _ =>
    obtain ⟨u, hu, hp⟩ := k.exec c _ (pending (fun _ => rest) s h)
    obtain rfl := Host.Outcome.next.inj (hu.symm.trans st)
    exact hp

end Kept

end Sys2Proof.Machine
end


section
/-!
The operations of the builder, the record list and the acquisition controller, taken apart into elementary changes.
-/

namespace Sys2Proof.Machine

/-- One elementary change. -/
def Piece (s t : State) : Prop := Quiet s t ∨ Work s t

/-- A chain of elementary changes. -/
abbrev Pieces : State → State → Prop := Relation.ReflTransGen Piece

theorem Quiet.pieces {s t : State} (h : Quiet s t) : Pieces s t := .single (.inl h)

theorem Work.pieces {s t : State} (h : Work s t) : Pieces s t := .single (.inr h)

theorem Pieces.quiet {s t u : State} (m : Pieces s t) (h : Quiet t u) : Pieces s u := m.trans h.pieces

theorem Pieces.work {s t u : State} (m : Pieces s t) (h : Work t u) : Pieces s u := m.trans h.pieces

theorem occur_pieces (c : Cond) (ev : Option EventNum) (s : State) : Pieces s (occur c ev s) :=
  (Quiet.conds _ s rfl).pieces

theorem occurIf_pieces (b : Bool) (c : Cond) (ev : Option EventNum) (s : State) : Pieces s (occurIf b c ev s) := by
  unfold occurIf
  split
  · exact occur_pieces c ev s
  · exact .refl

/-! ## STANDBY and DRAINING -/

/-- Entry into STANDBY from a state whose acquisition state has been set: a pending commit is applied (R137). -/
theorem enterStandby_eq (s : State) :
    enterStandby s =
      if s.list.pending then occur .listSwapStop none (applyCommit (setAcq .standby s)) else setAcq .standby s := rfl

theorem enterStandby_after (s : State) : Pieces (setAcq .standby s) (enterStandby s) := by
  rw [enterStandby_eq]
  split
  · exact (applyCommit_quiet _).pieces.trans (occur_pieces _ _ _)
  · exact .refl

theorem enterStandby_pieces (s : State) : Pieces s (enterStandby s) :=
  (Work.enter .standby s (.inl rfl)).pieces.trans (enterStandby_after s)

theorem drainTest_pieces (s : State) : Pieces s (drainTest s) := by
  unfold drainTest
  split
  · exact enterStandby_pieces s
  · exact .refl

/-- DRAINING is entered, and the end of draining tested; leaving SUSPENDED decides the throttle first (R47, R70). -/
theorem stopRun_cases (s : State) :
    (stopRun s = s ∧ (s.acq.state = .standby ∨ s.acq.state = .draining)) ∨
      (s.acq.state ≠ .standby ∧ s.acq.state ≠ .suspended ∧ stopRun s = drainTest (setAcq .draining s)) ∨
      (s.acq.state = .suspended ∧ stopRun s = drainTest (throttleRelax (setAcq .draining s))) := by
  cases h : s.acq.state <;> simp [stopRun, h, setAcq]

theorem stopRun_pieces (s : State) : Pieces s (stopRun s) := by
  rcases stopRun_cases s with ⟨h, -⟩ | ⟨h, -, e⟩ | ⟨h, e⟩
  · rw [h]
  · rw [e]
    exact (Work.enter .draining s (.inr ⟨rfl, h⟩)).pieces.trans (drainTest_pieces _)
  · rw [e]
    exact ((Work.enter .draining s (.inr ⟨rfl, by simp [h]⟩)).pieces.quiet (.throttleRelax _)).trans (drainTest_pieces _)

theorem reset_pieces (s : State) : Pieces s (enterStandby (resetReadout (resetQueue s))) :=
  (Work.reset s).pieces.trans (enterStandby_after _)

/-! ## The builder -/

theorem fragmentWords_length (b : Build) (summary : BitVec 4) (sourceId : Nat) :
    (fragmentWords b summary sourceId).length = b.length := by
  simp [fragmentWords, headerWords, Build.length]
  omega

theorem startRecord_pieces (r : Record) (s : State) : Pieces s (startRecord r s) := by
  unfold startRecord
  dsimp only
  split
  · exact (applyCommit_quiet s).pieces.work (.builder _ _)
  · exact (Work.builder _ s).pieces

theorem appendFragment_pieces (b : Build) (s : State) (h : fits b s = true) : Pieces s (appendFragment b s) := by
  have room : s.tx.buffer.length + b.length ≤ 4096 := by simpa [fits] using h
  unfold appendFragment
  dsimp only
  refine .trans ?_ (drainTest_pieces _)
  refine Pieces.work (Pieces.quiet (Pieces.work (Pieces.quiet (Work.words _ s rfl fun _ credits => ⟨?_, credits⟩).pieces
    (.tally _ _ (by exact fun _ h => h))) (.removeHead _)) (.list _ _ fun staged active => ⟨staged, active⟩)) (.builder _ _)
  simpa [fragmentWords_length] using room

theorem settleBuilder_pieces (s : State) : Pieces s (settleBuilder s) :=
  settleBuilder_keeps (Pieces s) (fun t r _ m _ _ => m.trans (startRecord_pieces r t))
    (fun _ _ m _ _ => m.work (.builder _ _)) (fun t b m _ fit => m.trans (appendFragment_pieces b t fit)) s .refl

theorem recordStart_pieces (s : State) : Pieces s (recordStart s) := by
  unfold recordStart
  split
  · exact settleBuilder_pieces s
  · exact .refl
  · exact .refl
  · exact .refl

theorem fragmentAppend_pieces (s : State) : Pieces s (fragmentAppend s) := by
  unfold fragmentAppend
  split
  · split
    · exact settleBuilder_pieces s
    · exact .refl
  · exact .refl
  · exact .refl

theorem entryOccurrences_pieces (ev : EventNum) (res : EntryResult) (s : State) :
    Pieces s (entryOccurrences ev res s) := by
  unfold entryOccurrences
  refine .trans ?_ (occurIf_pieces _ _ _ _)
  split
  · exact (Quiet.tally _ s (by exact fun _ h => h)).pieces
  · exact .refl

theorem completeEntry_pieces (s : State) : Pieces s (completeEntry s) := by
  unfold completeEntry
  split
  · split
    · exact ((entryOccurrences_pieces _ _ s).work (.builder _ _)).trans (settleBuilder_pieces _)
    · exact .refl
  · exact .refl
  · exact .refl
  · exact .refl

/-- The completion of a block lets its words go, and the rest is elementary changes. -/
theorem completeBlock_cases (s : State) :
    completeBlock s = s ∨ ∃ n, s.tx.begun = some n ∧ Pieces (releaseBlock n s) (completeBlock s) := by
  unfold completeBlock
  split
  · exact .inl rfl
  · next n begun => exact .inr ⟨n, begun, (settleBuilder_pieces _).trans (drainTest_pieces _)⟩

/-! ## Accepts -/

/-- An accept is counted in ACC_SEEN (R74). -/
def countSeen (s : State) : State := tally (fun c => { c with accSeen := c.accSeen + 1 }) s

/-- A gap is counted in ACC_NOREC (R74). -/
def countGap (s : State) : State := tally (fun c => { c with accNoRec := c.accNoRec + 1 }) s

/-- A record is counted in REC_MADE (R74). -/
def countMade (s : State) : State := tally (fun c => { c with recMade := c.recMade + 1 }) s

theorem ruleHistory_length (q : AcceptQueue) (now : Serial) (h : q.history.length ≤ q.ruleK) :
    (ruleHistory q now).length ≤ q.ruleK := by
  unfold ruleHistory
  split
  · exact h
  · simp only [List.length_append, List.length_cons, List.length_nil]
    split
    · rw [List.length_drop]; omega
    · omega

theorem ruleCheck_pieces (e : EventNum) (s : State) : Pieces s (ruleCheck e s) := by
  unfold ruleCheck
  refine Pieces.quiet ?_ (.queue _ _ rfl rfl rfl (ruleHistory_length _ _))
  split
  · exact (occur_pieces _ _ s).quiet (.tally _ _ (by exact fun _ h => h))
  · exact .refl

/-- The trigger rule leaves the counters of R74, the records and the slots. -/
theorem ruleCheck_frame (e : EventNum) (s : State) :
    (ruleCheck e s).cond.counters.accSeen = s.cond.counters.accSeen ∧
      (ruleCheck e s).cond.counters.recMade = s.cond.counters.recMade ∧
      (ruleCheck e s).cond.counters.accNoRec = s.cond.counters.accNoRec := by
  unfold ruleCheck
  split <;> simp

theorem lowestFree_free {s : State} {k : Fin 16} (h : lowestFree s = some k) : s.aq.snaps[k] = none := by
  simpa using List.find?_some h

/-- The slot of a full record is free. -/
theorem recordKind_free {v : Bool} {s : State} {k : Fin 16} (h : recordKind v s = some (.full k)) :
    s.aq.snaps[k] = none := by
  unfold recordKind at h
  split at h
  · simp at h
  · simp at h
  · simp at h
  · simp at h
  · split at h
    · simp at h
    · split at h
      · next free =>
        simp only [Option.some.injEq, RecordKind.full.injEq] at h
        subst h
        exact lowestFree_free free
      · simp at h

/-- What a record made counts besides REC_MADE: NOSNAPS and NOSLOT (R60). -/
def nosnapOccurrences (e : EventNum) (kind : RecordKind) (s : State) : State :=
  match kind with
  | .full _ => s
  | .nosnap reason =>
    occurIf (decide (reason = .noslot)) .noSlot (some e) (tally (fun c => { c with noSnaps := c.noSnaps + 1 }) s)

theorem recordOccurrences_eq (e : EventNum) (kind : RecordKind) (s : State) :
    recordOccurrences e kind s = nosnapOccurrences e kind (countMade s) := by
  cases kind <;> rfl

theorem nosnapOccurrences_only (e : EventNum) (kind : RecordKind) (s : State) :
    OnlyConditions s (nosnapOccurrences e kind s) := by
  cases kind with
  | full k => exact .refl s
  | nosnap reason => exact (tally_only _ s).trans (occurIf_only _ _ _ _)

theorem recordOccurrences_only (e : EventNum) (kind : RecordKind) (s : State) :
    OnlyConditions s (recordOccurrences e kind s) := by
  rw [recordOccurrences_eq]
  exact (tally_only _ s).trans (nosnapOccurrences_only _ _ _)

theorem nosnapOccurrences_pieces (e : EventNum) (kind : RecordKind) (s : State) :
    Pieces s (nosnapOccurrences e kind s) := by
  cases kind with
  | full k => exact .refl
  | nosnap reason =>
    have counted : Quiet s (tally (fun c => { c with noSnaps := c.noSnaps + 1 }) s) := .tally _ s fun _ h => h
    exact counted.pieces.trans (occurIf_pieces _ _ _ _)

theorem makeRecord_pieces (e : EventNum) (v : Bool) (kind : RecordKind) (s : State) (room : s.aq.records.length < 32)
    (free : ∀ k, kind = .full k → s.aq.snaps[k] = none) : Pieces (countMade s) (makeRecord e v kind s) := by
  have queue : (recordOccurrences e kind s).aq.records = s.aq.records ∧
      (recordOccurrences e kind s).aq.snaps = s.aq.snaps := by
    rw [(recordOccurrences_only e kind s).aq]; exact ⟨rfl, rfl⟩
  unfold makeRecord
  refine .trans (Pieces.work (Pieces.quiet ?_ (.inj _ _ fun h => (List.length_filter_le _ _).trans h))
    (.appendRecord _ _ _ ?_ ?_)) (settleBuilder_pieces _)
  · rw [recordOccurrences_eq]
    exact nosnapOccurrences_pieces _ _ _
  · show (recordOccurrences e kind s).aq.records.length < 32
    rw [queue.1]
    exact room
  · intro k hk
    show (recordOccurrences e kind s).aq.snaps[k] = none
    rw [queue.2]
    exact free k hk

/-- An accept is counted, the trigger rule checked, and then it is counted again, as a gap or as a record. -/
theorem acceptArrival_pieces (e : EventNum) (s : State) :
    ∃ u v, Pieces (countSeen s) u ∧
      (u.cond.counters.accSeen = s.cond.counters.accSeen + 1 ∧ u.cond.counters.recMade = s.cond.counters.recMade ∧
        u.cond.counters.accNoRec = s.cond.counters.accNoRec) ∧
      (v = countGap u ∨ v = countMade u) ∧ Pieces v (acceptArrival e s) := by
  have checked : Pieces (countSeen s) (ruleCheck e (countSeen s)) := ruleCheck_pieces e _
  have counts := ruleCheck_frame e (countSeen s)
  have gapped : ∀ u : State, Pieces u (u.mapAq fun q => { q with gap := bump 65535 q.gap }) :=
    fun u => (Quiet.queue _ u rfl rfl rfl id).pieces
  show ∃ u v, _ ∧ _ ∧ _ ∧ Pieces v (decideAccept e _ (ruleCheck e (countSeen s)))
  unfold decideAccept
  split
  · exact ⟨_, _, checked.trans (gapped _), counts, .inl rfl, occur_pieces _ _ _⟩
  · next room =>
    split
    · exact ⟨_, _, checked.trans (gapped _), counts, .inl rfl, .refl⟩
    · next kind hk =>
      refine ⟨_, _, checked, counts, .inr rfl, makeRecord_pieces _ _ _ _ (Nat.not_le.1 room) fun k full => ?_⟩
      subst full
      exact recordKind_free hk

/-! ## A rule kept by every elementary change -/

namespace Kept

variable {P : State → Prop}

/-- What every elementary change keeps, the operations made of them keep; what an accept counts is left to the rule. -/
theorem of_pieces (ctl : ∀ f s, P s → P (s.mapCtl f)) (quiet : ∀ s t, Quiet s t → P s → P t)
    (work : ∀ s t, Work s t → P s → P t) (release : ∀ n s, P s → P (releaseBlock n s))
    (accept : ∀ e s, P s → P (acceptArrival e s)) (power : ∀ s, P s → P (powerOn s)) : Kept P := by
  have pieces : ∀ s t, Pieces s t → P s → P t := by
    intro s t m h
    induction m with
    | refl => exact h
    | tail _ p ih => exact p.elim (fun q => quiet _ _ q ih) (fun w => work _ _ w ih)
  refine ⟨ctl, fun s t c h => ?_, fun s h => ?_, power⟩
  rotate_left
  · rcases completeBlock_cases s with e | ⟨n, -, m⟩
    · rw [e]; exact h
    · exact pieces _ _ m (release n s h)
  cases c with
  | quiet q => exact quiet _ _ q h
  | recordStart => exact pieces _ _ (recordStart_pieces s) h
  | fragmentAppend => exact pieces _ _ (fragmentAppend_pieces s) h
  | completeEntry => exact pieces _ _ (completeEntry_pieces s) h
  | drainTest => exact pieces _ _ (drainTest_pieces s) h
  | stopRun => exact pieces _ _ (stopRun_pieces s) h
  | accept e => exact accept e s h
  | reset => exact pieces _ _ (reset_pieces s) h

/-- A rule that says nothing of the activity counters. -/
theorem of_uncounted (ctl : ∀ f s, P s → P (s.mapCtl f)) (quiet : ∀ s t, Quiet s t → P s → P t)
    (work : ∀ s t, Work s t → P s → P t) (release : ∀ n s, P s → P (releaseBlock n s))
    (tally : ∀ f s, P s → P (tally f s)) (power : ∀ s, P s → P (powerOn s)) : Kept P := by
  have pieces : ∀ s t, Pieces s t → P s → P t := by
    intro s t m h
    induction m with
    | refl => exact h
    | tail _ p ih => exact p.elim (fun q => quiet _ _ q ih) (fun w => work _ _ w ih)
  refine of_pieces ctl quiet work release (fun e s h => ?_) power
  obtain ⟨u, v, before, -, rfl | rfl, after⟩ := acceptArrival_pieces e s
  · exact pieces _ _ after (tally _ _ (pieces _ _ before (tally _ _ h)))
  · exact pieces _ _ after (tally _ _ (pieces _ _ before (tally _ _ h)))

end Kept

end Sys2Proof.Machine
end


section
/-!
The rules of the part that hold right after reset, and the operations that move acquisition and the record list, each in one
equation.
-/

namespace Sys2Proof.Machine

/-! ## Right after reset -/

theorem reset_suspendRule : SuspendRule State.reset := by simp [SuspendRule, State.reset]

theorem reset_ringsCanonical : RingsCanonical State.reset := by
  intro c
  simp [State.reset, ChanPipe.default, ringWf]

theorem reset_runSettled : RunSettled State.reset := fun h => absurd rfl h

theorem reset_acceptsBalance : AcceptsBalance State.reset := rfl

theorem reset_withinCapacity : WithinCapacity State.reset := by simp [WithinCapacity, State.reset]

theorem reset_slotsHeld : SlotsHeld State.reset := by
  refine ⟨List.nodup_nil, fun k => ?_⟩
  simp [State.reset, heldSlots]

theorem reset_fillBounded : FillBounded State.reset := by
  refine ⟨Nat.zero_le _, fun c => ?_⟩
  simp [State.reset, ChanPipe.default]

theorem reset_suspendedThrottled : SuspendedThrottled State.reset := by simp [SuspendedThrottled, State.reset]

theorem reset_searchesInRound : SearchesInRound State.reset := fun t h => by simp [State.reset] at h

/-- Settles O11: after reset acquisition is in STANDBY, every store is empty and the port is free. -/
theorem resetKeepsEveryRule : Obligations.ResetKeepsEveryRule :=
  ⟨reset_suspendRule, reset_ringsCanonical, reset_runSettled, reset_acceptsBalance, reset_withinCapacity, reset_slotsHeld,
    reset_fillBounded, reset_suspendedThrottled, ⟨rfl, rfl⟩, trivial, fun _ => ⟨rfl, rfl⟩,
    fun h => by simp [State.reset] at h, fun _ => rfl, reset_searchesInRound, rfl, fun _ => rfl⟩

/-! ## Operations in one equation -/

theorem finishTrms_ctl (st : Status) (p : List Byte) (s : State) : ∃ f, finishTrms st p s = s.mapCtl f := by
  unfold finishTrms
  split
  · exact ⟨_, rfl⟩
  all_goals exact ⟨id, rfl⟩

theorem primingTest_cases (s : State) :
    primingTest s = s ∨ (s.acq.state = .priming ∧ s.pipe.fill = s.acq.startL ∧ primingTest s = setAcq .running s) := by
  unfold primingTest
  split
  · next h =>
    split
    · next full => exact .inr ⟨h, full, rfl⟩
    · exact .inl rfl
  all_goals exact .inl rfl

theorem acqDeparture_cases (s : State) :
    acqDeparture s = s ∨ (s.acq.state = .running ∧ acqDeparture s = setAcq .priming s) := by
  unfold acqDeparture
  split
  · next h => exact .inr ⟨h, rfl⟩
  all_goals exact .inl rfl

/-- The throttle and its frame replaced. -/
def setThrottle (on : Bool) (wf : Option ThrottleFrame) (s : State) : State :=
  (s.mapAq fun q => { q with throttle := on }).mapTx fun t => { t with waitingFrame := wf }

theorem throttleOn_eq (s : State) : ∃ wf, throttleOn s = setThrottle true wf s := by
  unfold throttleOn
  split
  · next on => exact ⟨s.tx.waitingFrame, by simp [setThrottle, State.mapAq, State.mapTx, ← on]⟩
  · exact ⟨_, rfl⟩

theorem throttleOff_eq (s : State) : ∃ wf, throttleOff s = setThrottle false wf s := by
  unfold throttleOff
  split
  · exact ⟨_, rfl⟩
  · next off =>
    have off : s.aq.throttle = false := by simpa using off
    exact ⟨s.tx.waitingFrame, by simp [setThrottle, State.mapAq, State.mapTx, ← off]⟩

/-- The throttle relaxed stays as it is, or is off outside SUSPENDED. -/
theorem throttleRelax_cases (s : State) :
    throttleRelax s = s ∨ (s.acq.state ≠ .suspended ∧ ∃ wf, throttleRelax s = setThrottle false wf s) := by
  unfold throttleRelax
  split
  · next h => exact .inr ⟨h.1, throttleOff_eq s⟩
  · exact .inl rfl

/-- The state a run starts from: the start copy taken and the fill counts empty (R42). -/
def copySettings (s : State) : State :=
  emptyFill (s.mapAcq fun a => { a with startL := s.pipe.latency, startN := s.pipe.window, startS := s.clk.s })

theorem startRun_cases (s : State) :
    (class3 s = false ∧ startRun s = setAcq .priming (copySettings s)) ∨
      (class3 s = true ∧ ∃ wf, startRun s = setThrottle true wf (setAcq .suspended (copySettings s))) := by
  unfold startRun
  dsimp only
  split
  · next h => exact .inr ⟨h, throttleOn_eq _⟩
  · next h => exact .inl ⟨by simpa using h, rfl⟩

/-- The head record leaves the list, and its slot, if it has one, is free (R67). -/
def dropHead (r : Record) (rest : List Record) (q : AcceptQueue) : AcceptQueue :=
  match r.kind with
  | .nosnap _ => { q with records := rest }
  | .full slot => { q with records := rest, snaps := put q.snaps slot none }

theorem removeHead_cases (s : State) :
    (s.aq.records = [] ∧ removeHead s = s) ∨
      ∃ r rest, s.aq.records = r :: rest ∧
        (removeHead s = s.mapAq (dropHead r rest) ∨ removeHead s = throttleRelax (s.mapAq (dropHead r rest))) := by
  unfold removeHead
  split
  · next h => exact .inl ⟨h, rfl⟩
  · next r rest h =>
    refine .inr ⟨r, rest, h, ?_⟩
    split
    · next reason hk => exact .inl (by unfold dropHead; simp [hk, State.mapAq])
    · next slot hk => exact .inr (by unfold dropHead; simp [hk, State.mapAq])

theorem dropHead_records (r : Record) (rest : List Record) (q : AcceptQueue) : (dropHead r rest q).records = rest := by
  unfold dropHead; split <;> rfl

theorem dropHead_other (r : Record) (rest : List Record) (q : AcceptQueue) :
    (dropHead r rest q).history = q.history ∧ (dropHead r rest q).ruleK = q.ruleK ∧
      (dropHead r rest q).throttle = q.throttle := by
  unfold dropHead; split <;> exact ⟨rfl, rfl, rfl⟩

/-- The snapshot slots after a record has been appended. -/
def fillSlot (kind : RecordKind) (snap : Snapshot) (v : Vector (Option Snapshot) 16) : Vector (Option Snapshot) 16 :=
  match kind with
  | .nosnap _ => v
  | .full k => put v k (some snap)

/-- A record appended moves the queue, the throttle and its frame alone (R61 to R64, R69, R73). -/
theorem appendRecord_cases (r : Record) (snap : Snapshot) (s : State) :
    ∃ (mark : Nat) (t : State),
      t = s.mapAq (fun q => { q with records := q.records ++ [r], gap := 0,
                                     recordMark := max q.recordMark (q.records.length + 1), slotMark := mark,
                                     snaps := fillSlot r.kind snap q.snaps }) ∧
      (appendRecord r snap s = t ∨ appendRecord r snap s = throttleOn t) := by
  unfold appendRecord
  dsimp only
  split
  · next reason hk => exact ⟨s.aq.slotMark, _, rfl, .inl (by simp [State.mapAq, fillSlot, hk])⟩
  · next k hk =>
    refine ⟨max s.aq.slotMark (slotsInUse (s.mapAq fun q => { q with records := q.records ++ [r], gap := 0, recordMark := max q.recordMark (q.records.length + 1), snaps := put q.snaps k (some snap) })), _, rfl, ?_⟩
    split
    · exact .inr (by simp [State.mapAq, fillSlot, hk])
    · exact .inl (by simp [State.mapAq, fillSlot, hk])

/-- rset at the queue, the readout and the acquisition state (R49 to R51). -/
theorem resetPiece_eq (s : State) :
    ∃ wf, setAcq .standby (resetReadout (resetQueue s)) =
      { s with
        acq := { s.acq with state := .standby }
        aq := { s.aq with records := [], snaps := tab fun _ => none, gap := 0, history := [], throttle := false,
                          recordMark := 0, slotMark := 0 }
        builder := { state := .idle, inFlight := none }
        tx := { s.tx with buffer := s.tx.buffer.take (s.tx.begun.getD 0), credits := 0, stallTimer := 0,
                          stallMark := false, waitingFrame := wf } } := by
  obtain ⟨wf, h⟩ := throttleOff_eq (s.mapAq fun q =>
    { q with records := [], snaps := tab fun _ => none, gap := 0, history := [], recordMark := 0, slotMark := 0 })
  refine ⟨wf, ?_⟩
  unfold resetQueue
  rw [h]
  rfl

end Sys2Proof.Machine
end


section
/-!
The rules of the whole part that every elementary change keeps: R46's SUSPENDED, the rings, the settings of a run, the trims,
R74's balance, the stores, the held slots, the fill counts and the throttle.
-/

namespace Sys2Proof.Machine

/-! ## Every command completes -/

theorem Quiet.pending {s t : State} (h : Quiet s t) : t.pending = s.pending := by
  cases h with
  | conds f _ _ => exact (changeConds_only f s).pending
  | throttleOn => exact (throttleOn_only s).pending
  | throttleRelax => exact (throttleRelax_only s).pending
  | primingTest => rcases primingTest_cases s with e | ⟨-, -, e⟩ <;> simp [e, setAcq]
  | acqDeparture => rcases acqDeparture_cases s with e | ⟨-, e⟩ <;> simp [e, setAcq]
  | startRun => rcases startRun_cases s with ⟨-, e⟩ | ⟨-, wf, e⟩ <;> (rw [e]; rfl)
  | finishTrms st p => obtain ⟨f, e⟩ := finishTrms_ctl st p s; rw [e]; rfl
  | _ => rfl

theorem Work.pending {s t : State} (h : Work s t) : t.pending = s.pending := by
  cases h with
  | removeHead =>
    rcases removeHead_cases s with ⟨-, e⟩ | ⟨r, rest, -, e | e⟩ <;> rw [e]
    · rfl
    · exact (throttleRelax_only _).pending
  | appendRecord r snap _ _ =>
    obtain ⟨mark, t, rfl, e | e⟩ := appendRecord_cases r snap s <;> rw [e]
    · rfl
    · exact (throttleOn_only _).pending
  | reset => obtain ⟨wf, e⟩ := resetPiece_eq s; rw [e]
  | _ => rfl

theorem kept_pending (q : List Instr) : Kept fun s => s.pending = q :=
  .of_uncounted (fun _ _ h => h) (fun _ _ c h => c.pending.trans h) (fun _ _ c h => c.pending.trans h) (fun _ _ h => h)
    (fun _ _ h => h) (fun _ h => h)

/-- Settles O2: no meaning faults or refuses, and no change is one of the queue of commands. -/
theorem everyCommandCompletes : Obligations.EveryCommandCompletes :=
  fun c s => (kept_pending s.pending).exec c s rfl

/-! ## SUSPENDED and class 3 (R46) -/

/-- The rule speaks of the acquisition state and of class 3 alone. -/
theorem SuspendRule.congr {s t : State} (h : SuspendRule s) (acq : t.acq.state = s.acq.state)
    (c3 : class3 t = class3 s) : SuspendRule t := by
  unfold SuspendRule at *
  rw [acq, c3]
  exact h

/-- A move between states other than SUSPENDED keeps the rule where class 3 is clear, or into STANDBY or DRAINING. -/
theorem suspendRule_setAcq (x : AcqState) (s : State) (hx : x ≠ .suspended)
    (h : class3 s = false ∨ x = .standby ∨ x = .draining) : SuspendRule (setAcq x s) := by
  refine ⟨fun e => absurd e hx, fun ⟨c3, sb, dr⟩ => ?_⟩
  rcases h with h | h | h
  · exact absurd (c3.symm.trans h) (by simp)
  · exact absurd h sb
  · exact absurd h dr

/-- PRIMING and RUNNING are kept only with class 3 clear. -/
theorem SuspendRule.clear {s : State} (h : SuspendRule s) (x : AcqState) (hs : s.acq.state = x) (h1 : x ≠ .suspended)
    (h2 : x ≠ .standby) (h3 : x ≠ .draining) : class3 s = false := by
  unfold SuspendRule at h
  rw [hs] at h
  cases c : class3 s
  · rfl
  · exact absurd (h.2 ⟨c, h2, h3⟩) h1

theorem Quiet.suspendRule {s t : State} (c : Quiet s t) (h : SuspendRule s) : SuspendRule t := by
  cases c with
  | conds f _ _ => exact changeConds_suspendRule f s h
  | throttleOn => exact h.congr (by simp) (by simp [class3])
  | throttleRelax => exact h.congr (by simp) (by simp [class3])
  | primingTest =>
    rcases primingTest_cases s with e | ⟨hs, -, e⟩ <;> rw [e]
    · exact h
    · exact suspendRule_setAcq _ s (by simp) (.inl (h.clear _ hs (by simp) (by simp) (by simp)))
  | acqDeparture =>
    rcases acqDeparture_cases s with e | ⟨hs, e⟩ <;> rw [e]
    · exact h
    · exact suspendRule_setAcq _ s (by simp) (.inl (h.clear _ hs (by simp) (by simp) (by simp)))
  | startRun =>
    rcases startRun_cases s with ⟨c3, e⟩ | ⟨c3, wf, e⟩ <;> rw [e]
    · exact suspendRule_setAcq _ _ (by simp) (.inl c3)
    · exact ⟨fun _ => ⟨c3, by simp [setThrottle, setAcq], by simp [setThrottle, setAcq]⟩, fun _ => rfl⟩
  | finishTrms st p => obtain ⟨f, e⟩ := finishTrms_ctl st p s; rw [e]; exact h
  | _ => exact h

theorem Work.suspendRule {s t : State} (c : Work s t) (h : SuspendRule s) : SuspendRule t := by
  cases c with
  | removeHead =>
    rcases removeHead_cases s with ⟨-, e⟩ | ⟨r, rest, -, e | e⟩ <;> rw [e]
    · exact h
    · exact h
    · exact h.congr (by simp) (by simp [class3])
  | appendRecord r snap _ _ =>
    obtain ⟨mark, t, rfl, e | e⟩ := appendRecord_cases r snap s <;> rw [e]
    · exact h
    · exact h.congr (by simp) (by simp [class3])
  | enter x _ hx =>
    rcases hx with rfl | ⟨rfl, -⟩
    · exact suspendRule_setAcq _ s (by simp) (.inr (.inl rfl))
    · exact suspendRule_setAcq _ s (by simp) (.inr (.inr rfl))
  | reset => exact suspendRule_setAcq _ _ (by simp) (.inr (.inl rfl))
  | _ => exact h

theorem kept_suspendRule : Kept SuspendRule :=
  .of_uncounted (fun _ _ h => h) (fun _ _ => Quiet.suspendRule) (fun _ _ => Work.suspendRule) (fun _ _ h => h)
    (fun _ _ h => h) (fun _ _ => reset_suspendRule)

/-- Settles O3: class 3 changes only with the Condition Table, which hands its raising and clearing to the controller in the
same change. -/
theorem stepKeepsSuspendRule : Obligations.StepKeepsSuspendRule :=
  fun _ _ h st => kept_suspendRule.step (fun _ _ h => h) h st

/-! ## The rings (R6) -/

theorem RingsCanonical.congr {s t : State} (h : RingsCanonical s) (pipe : t.pipe.chans = s.pipe.chans) :
    RingsCanonical t := by
  unfold RingsCanonical at *
  rw [pipe]
  exact h

theorem ringsCanonical_emptyFill {s : State} (h : RingsCanonical s) : RingsCanonical (emptyFill s) := by
  intro c
  simpa [emptyFill, tab] using h c

theorem Quiet.ringsCanonical {s t : State} (c : Quiet s t) (h : RingsCanonical s) : RingsCanonical t := by
  cases c with
  | pipe f _ _ _ rings _ => exact rings h
  | pipeSettings f _ _ chans _ => exact h.congr chans
  | conds f _ _ => exact h.congr (by rw [(changeConds_only f s).pipe])
  | throttleOn => exact h.congr (by rw [(throttleOn_only s).pipe])
  | throttleRelax => exact h.congr (by rw [(throttleRelax_only s).pipe])
  | primingTest => rcases primingTest_cases s with e | ⟨-, -, e⟩ <;> rw [e] <;> exact h
  | acqDeparture => rcases acqDeparture_cases s with e | ⟨-, e⟩ <;> rw [e] <;> exact h
  | startRun =>
    have copied : RingsCanonical (copySettings s) := ringsCanonical_emptyFill (s := s.mapAcq _) h
    rcases startRun_cases s with ⟨-, e⟩ | ⟨-, wf, e⟩ <;> rw [e] <;> exact copied
  | finishTrms st p => obtain ⟨f, e⟩ := finishTrms_ctl st p s; rw [e]; exact h
  | _ => exact h

theorem Work.pipe {s t : State} (c : Work s t) : t.pipe = s.pipe := by
  cases c with
  | removeHead =>
    rcases removeHead_cases s with ⟨-, e⟩ | ⟨r, rest, -, e | e⟩ <;> rw [e]
    · rfl
    · exact (throttleRelax_only _).pipe
  | appendRecord r snap _ _ =>
    obtain ⟨mark, t, rfl, e | e⟩ := appendRecord_cases r snap s <;> rw [e]
    · rfl
    · exact (throttleOn_only _).pipe
  | reset => obtain ⟨wf, e⟩ := resetPiece_eq s; rw [e]
  | _ => rfl

theorem kept_ringsCanonical : Kept RingsCanonical :=
  .of_uncounted (fun _ _ h => h) (fun _ _ => Quiet.ringsCanonical) (fun _ _ c h => h.congr (by rw [c.pipe]))
    (fun _ _ h => h) (fun _ _ h => h) (fun _ _ => reset_ringsCanonical)

/-- Settles O4: the one write to a ring, at a sample arrival, keeps its canonical form. -/
theorem stepKeepsRingsCanonical : Obligations.StepKeepsRingsCanonical :=
  fun _ _ h st => kept_ringsCanonical.step (fun _ _ h => h) h st

/-! ## The settings of a run (R43) -/

/-- In STANDBY the rule says nothing. -/
theorem runSettled_of_standby {s : State} (h : s.acq.state = .standby) : RunSettled s := fun ne => absurd h ne

/-- The rule is kept by a change that leaves what it speaks of and does not leave STANDBY. -/
theorem RunSettled.congr {s t : State} (h : RunSettled s) (standby : s.acq.state = .standby → t.acq.state = .standby)
    (l : t.acq.startL = s.acq.startL) (n : t.acq.startN = s.acq.startN) (sp : t.acq.startS = s.acq.startS)
    (lat : t.pipe.latency = s.pipe.latency) (win : t.pipe.window = s.pipe.window) (clk : t.clk.s = s.clk.s)
    (recs : t.front.recs = s.front.recs) (filt : t.filt = s.filt) : RunSettled t := by
  intro ne
  have := h fun e => ne (standby e)
  simpa only [l, n, sp, lat, win, clk, recs, filt] using this

/-- A change of the Condition Table does not leave STANDBY, and enters it no more. -/
theorem changeConds_standby (f : CondTable → CondTable) (s : State) :
    (changeConds f s).acq.state = .standby ↔ s.acq.state = .standby := by
  by_cases he : class3 (s.mapCond f) = class3 s
  · rw [changeConds_same f s he]; rfl
  · cases h3 : class3 s
    · rw [changeConds_raises f s h3 (by simpa [h3] using he)]
      cases hs : s.acq.state <;> simp [onClass3Raised, hs, enterSuspended]
    · rw [changeConds_clears f s h3 (by simpa [h3] using he)]
      cases hs : s.acq.state <;> simp [onClass3Cleared, hs]
      by_cases hl : s.acq.startL ≤ s.pipe.fill <;> simp [hl]

/-- What a rule of the run needs of a change of conditions or throttle. -/
theorem RunSettled.only {s t : State} (h : RunSettled s) (o : OnlyConditions s t)
    (standby : s.acq.state = .standby → t.acq.state = .standby) : RunSettled t := by
  obtain ⟨front, pipe, -, clk, -, -, filt, -, -, -, -, -, -, -, acq, -, -⟩ := o.frame
  exact h.congr standby (by rw [acq]) (by rw [acq]) (by rw [acq]) (by rw [pipe]) (by rw [pipe]) (by rw [clk])
    (by rw [front]) filt

/-- A run starts with its settings copied and its filter sets checked (R41, R42). -/
theorem runSettled_copySettings {s : State} (filters : FiltersFit s) (x : AcqState) :
    RunSettled (setAcq x (copySettings s)) := fun _ => ⟨rfl, rfl, rfl, filters⟩

theorem Quiet.runSettled {s t : State} (c : Quiet s t) (h : RunSettled s) : RunSettled t := by
  cases c with
  | lock f _ keepsS => exact h.congr id rfl rfl rfl rfl rfl keepsS rfl rfl
  | dacs f _ keepsRecs => exact h.congr id rfl rfl rfl rfl rfl rfl keepsRecs rfl
  | pipe f _ lat win _ _ => exact h.congr id rfl rfl rfl lat win rfl rfl rfl
  | chanRecs f _ standby => exact runSettled_of_standby standby
  | filt f _ standby => exact runSettled_of_standby standby
  | clockSettings f _ standby => exact runSettled_of_standby standby
  | pipeSettings f _ standby _ _ => exact runSettled_of_standby standby
  | conds f _ _ => exact h.only (changeConds_only f s) (changeConds_standby f s).2
  | throttleOn => exact h.only (throttleOn_only s) (by simp)
  | throttleRelax => exact h.only (throttleRelax_only s) (by simp)
  | primingTest =>
    rcases primingTest_cases s with e | ⟨hs, -, e⟩ <;> rw [e]
    · exact h
    · exact h.congr (by simp [hs]) rfl rfl rfl rfl rfl rfl rfl rfl
  | acqDeparture =>
    rcases acqDeparture_cases s with e | ⟨hs, e⟩ <;> rw [e]
    · exact h
    · exact h.congr (by simp [hs]) rfl rfl rfl rfl rfl rfl rfl rfl
  | startRun _ _ _ filters =>
    rcases startRun_cases s with ⟨-, e⟩ | ⟨-, wf, e⟩ <;> rw [e] <;> exact runSettled_copySettings filters _
  | finishTrms st p => obtain ⟨f, e⟩ := finishTrms_ctl st p s; rw [e]; exact h
  | _ => exact h

theorem Work.runSettled {s t : State} (c : Work s t) (h : RunSettled s) : RunSettled t := by
  cases c with
  | removeHead =>
    rcases removeHead_cases s with ⟨-, e⟩ | ⟨r, rest, -, e | e⟩ <;> rw [e]
    · exact h
    · exact h
    · exact RunSettled.only (s := s.mapAq _) h (throttleRelax_only _) (by simp)
  | appendRecord r snap _ _ =>
    obtain ⟨mark, t, rfl, e | e⟩ := appendRecord_cases r snap s <;> rw [e]
    · exact h
    · exact RunSettled.only (s := s.mapAq _) h (throttleOn_only _) (by simp)
  | enter x _ hx =>
    rcases hx with rfl | ⟨rfl, ne⟩
    · exact runSettled_of_standby rfl
    · exact h.congr (fun e => absurd e ne) rfl rfl rfl rfl rfl rfl rfl rfl
  | reset => exact runSettled_of_standby rfl
  | _ => exact h

theorem kept_runSettled : Kept RunSettled :=
  .of_uncounted (fun _ _ h => h) (fun _ _ => Quiet.runSettled) (fun _ _ => Work.runSettled) (fun _ _ h => h)
    (fun _ _ h => h) (fun _ _ => reset_runSettled)

/-! ## Trims (R84 to R88, R92, R93) -/

theorem TrimInStandby.congr {s t : State} (h : TrimInStandby s) (standby : s.acq.state = .standby → t.acq.state = .standby)
    (engine : t.trim.engine = s.trim.engine) : TrimInStandby t := fun ne =>
  engine.trans (h fun e => ne (standby e))

/-- What a rule of the engine needs of a change of conditions or throttle. -/
theorem OnlyConditions.trim {s t : State} (h : OnlyConditions s t) : t.trim = s.trim := h.frame.2.2.2.2.2.1

theorem Quiet.trimInStandby {s t : State} (c : Quiet s t) (h : TrimInStandby s) : TrimInStandby t := by
  cases c with
  | trim f _ inStandby _ => exact inStandby h
  | conds f _ _ => exact h.congr (changeConds_standby f s).2 (by rw [(changeConds_only f s).trim])
  | throttleOn => exact h.congr (by simp) (by rw [(throttleOn_only s).trim])
  | throttleRelax => exact h.congr (by simp) (by rw [(throttleRelax_only s).trim])
  | primingTest =>
    rcases primingTest_cases s with e | ⟨hs, -, e⟩ <;> rw [e]
    · exact h
    · exact h.congr (by simp [hs]) rfl
  | acqDeparture =>
    rcases acqDeparture_cases s with e | ⟨hs, e⟩ <;> rw [e]
    · exact h
    · exact h.congr (by simp [hs]) rfl
  | startRun _ _ idle _ =>
    rcases startRun_cases s with ⟨-, e⟩ | ⟨-, wf, e⟩ <;> rw [e] <;> exact fun _ => idle
  | finishTrms st p => obtain ⟨f, e⟩ := finishTrms_ctl st p s; rw [e]; exact h
  | _ => exact h

theorem Work.trim {s t : State} (c : Work s t) : t.trim = s.trim := by
  cases c with
  | removeHead =>
    rcases removeHead_cases s with ⟨-, e⟩ | ⟨r, rest, -, e | e⟩ <;> rw [e]
    · rfl
    · exact (throttleRelax_only _).trim
  | appendRecord r snap _ _ =>
    obtain ⟨mark, t, rfl, e | e⟩ := appendRecord_cases r snap s <;> rw [e]
    · rfl
    · exact (throttleOn_only _).trim
  | reset => obtain ⟨wf, e⟩ := resetPiece_eq s; rw [e]
  | _ => rfl

/-- Work leaves STANDBY no more than it begins a trim. -/
theorem Work.standby {s t : State} (c : Work s t) (h : s.acq.state = .standby) : t.acq.state = .standby := by
  cases c with
  | removeHead =>
    rcases removeHead_cases s with ⟨-, e⟩ | ⟨r, rest, -, e | e⟩ <;> rw [e]
    · exact h
    · exact h
    · rw [throttleRelax_acq]; exact h
  | appendRecord r snap _ _ =>
    obtain ⟨mark, t, rfl, e | e⟩ := appendRecord_cases r snap s <;> rw [e]
    · exact h
    · rw [throttleOn_acq]; exact h
  | enter x _ hx => exact hx.elim id fun hx => absurd h hx.2
  | reset => rfl
  | _ => exact h

theorem kept_trimInStandby : Kept TrimInStandby :=
  .of_uncounted (fun _ _ h => h) (fun _ _ => Quiet.trimInStandby) (fun _ _ c h => h.congr c.standby (by rw [c.trim]))
    (fun _ _ h => h) (fun _ _ h => h) (fun _ _ _ => rfl)

theorem SearchesInRound.congr {s t : State} (h : SearchesInRound s) (engine : t.trim = s.trim) : SearchesInRound t := by
  unfold SearchesInRound at *
  rw [engine]
  exact h

theorem Quiet.searchesInRound {s t : State} (c : Quiet s t) (h : SearchesInRound s) : SearchesInRound t := by
  cases c with
  | trim f _ _ inRound => exact inRound h
  | conds f _ _ => exact h.congr (changeConds_only f s).trim
  | throttleOn => exact h.congr (throttleOn_only s).trim
  | throttleRelax => exact h.congr (throttleRelax_only s).trim
  | primingTest => rcases primingTest_cases s with e | ⟨-, -, e⟩ <;> rw [e] <;> exact h
  | acqDeparture => rcases acqDeparture_cases s with e | ⟨-, e⟩ <;> rw [e] <;> exact h
  | startRun => rcases startRun_cases s with ⟨-, e⟩ | ⟨-, wf, e⟩ <;> rw [e] <;> exact h
  | finishTrms st p => obtain ⟨f, e⟩ := finishTrms_ctl st p s; rw [e]; exact h
  | _ => exact h

theorem kept_searchesInRound : Kept SearchesInRound :=
  .of_uncounted (fun _ _ h => h) (fun _ _ => Quiet.searchesInRound) (fun _ _ c h => h.congr c.trim) (fun _ _ h => h)
    (fun _ _ h => h) (fun _ _ => reset_searchesInRound)

/-- Settles O5: what a run has copied changes in STANDBY alone, the engine leaves IDLE there alone, and each round either
finishes a search or finds rounds of it to come. -/
theorem stepKeepsRunSettled : Obligations.StepKeepsRunSettled :=
  ⟨fun _ _ h st => kept_runSettled.step (fun _ _ h => h) h st,
    fun _ _ h st => kept_trimInStandby.step (fun _ _ h => h) h st,
    fun _ _ h st => kept_searchesInRound.step (fun _ _ h => h) h st⟩

/-! ## Held slots (R63) -/

theorem SlotsHeld.congr {s t : State} (h : SlotsHeld s) (records : t.aq.records = s.aq.records)
    (snaps : t.aq.snaps = s.aq.snaps) : SlotsHeld t := by
  unfold SlotsHeld heldSlots at *
  rw [records, snaps]
  exact h

theorem SlotsHeld.only {s t : State} (h : SlotsHeld s) (o : OnlyConditions s t) : SlotsHeld t :=
  h.congr (by rw [o.aq]) (by rw [o.aq])

theorem slot?_full (k : Fin 16) : (RecordKind.full k).slot? = some k := rfl

theorem slot?_nosnap (reason : NosnapReason) : (RecordKind.nosnap reason).slot? = none := rfl

/-- The head record takes its slot with it. -/
theorem SlotsHeld.dropHead {s : State} (h : SlotsHeld s) {r : Record} {rest : List Record}
    (hr : s.aq.records = r :: rest) : SlotsHeld (s.mapAq (dropHead r rest)) := by
  obtain ⟨nodup, held⟩ := h
  unfold heldSlots at nodup held
  rw [hr] at nodup held
  unfold Machine.dropHead
  cases hk : r.kind with
  | nosnap reason =>
    simp only [List.filterMap_cons, hk, slot?_nosnap] at nodup held
    exact ⟨nodup, held⟩
  | full slot =>
    simp only [List.filterMap_cons, hk, slot?_full, List.nodup_cons, List.mem_cons] at nodup held
    refine ⟨nodup.2, fun k => ?_⟩
    show ((put s.aq.snaps slot none)[k]).isSome = true ↔ k ∈ rest.filterMap fun r => r.kind.slot?
    by_cases hks : k = slot
    · subst hks
      simpa [put] using nodup.1
    · have other : (put s.aq.snaps slot none)[k] = s.aq.snaps[k] := by
        simp only [put, Fin.getElem_fin]
        exact Vector.getElem_set_ne _ _ (by omega)
      rw [other, held k]
      simp [hks]

/-- A record appended holds a slot that was free. -/
theorem SlotsHeld.append {s : State} (h : SlotsHeld s) (r : Record) (snap : Snapshot)
    (free : ∀ k, r.kind = .full k → s.aq.snaps[k] = none) (f : AcceptQueue → AcceptQueue)
    (records : (f s.aq).records = s.aq.records ++ [r]) (snaps : (f s.aq).snaps = fillSlot r.kind snap s.aq.snaps) :
    SlotsHeld (s.mapAq f) := by
  obtain ⟨nodup, held⟩ := h
  unfold heldSlots at nodup held
  unfold SlotsHeld
  have added : heldSlots (s.mapAq f) = s.aq.records.filterMap (fun r => r.kind.slot?) ++ r.kind.slot?.toList := by
    rw [heldSlots, State.mapAq_aq, records, List.filterMap_append]
    cases hk : r.kind <;> simp [hk, slot?_full, slot?_nosnap]
  rw [added, State.mapAq_aq, snaps]
  cases hk : r.kind with
  | nosnap reason => rw [slot?_nosnap, Option.toList_none, List.append_nil]; exact ⟨nodup, held⟩
  | full slot =>
    have notHeld : slot ∉ s.aq.records.filterMap fun r => r.kind.slot? := by
      rw [← held slot, free slot hk]
      simp
    simp only [slot?_full, fillSlot, Option.toList_some, List.mem_append, List.mem_singleton]
    refine ⟨List.nodup_append.2 ⟨nodup, by simp, ?_⟩, fun k => ?_⟩
    · rintro a ha b hb rfl
      exact notHeld (List.mem_singleton.1 hb ▸ ha)
    by_cases hks : k = slot
    · subst hks
      simp [put]
    · have other : (put s.aq.snaps slot (some snap))[k] = s.aq.snaps[k] := by
        simp only [put, Fin.getElem_fin]
        exact Vector.getElem_set_ne _ _ (by omega)
      rw [other, held k]
      simp [hks]

theorem Quiet.slotsHeld {s t : State} (c : Quiet s t) (h : SlotsHeld s) : SlotsHeld t := by
  cases c with
  | queue f _ records snaps _ _ => exact h.congr records snaps
  | conds f _ _ => exact h.only (changeConds_only f s)
  | throttleOn => exact h.only (throttleOn_only s)
  | throttleRelax => exact h.only (throttleRelax_only s)
  | primingTest => rcases primingTest_cases s with e | ⟨-, -, e⟩ <;> rw [e] <;> exact h
  | acqDeparture => rcases acqDeparture_cases s with e | ⟨-, e⟩ <;> rw [e] <;> exact h
  | startRun => rcases startRun_cases s with ⟨-, e⟩ | ⟨-, wf, e⟩ <;> rw [e] <;> exact h
  | finishTrms st p => obtain ⟨f, e⟩ := finishTrms_ctl st p s; rw [e]; exact h
  | _ => exact h

theorem Work.slotsHeld {s t : State} (c : Work s t) (h : SlotsHeld s) : SlotsHeld t := by
  cases c with
  | removeHead =>
    rcases removeHead_cases s with ⟨-, e⟩ | ⟨r, rest, hr, e | e⟩ <;> rw [e]
    · exact h
    · exact h.dropHead hr
    · exact (h.dropHead hr).only (throttleRelax_only _)
  | appendRecord r snap _ _ free =>
    obtain ⟨mark, t, rfl, e | e⟩ := appendRecord_cases r snap s <;> rw [e]
    · exact h.append r snap free _ rfl rfl
    · exact (h.append r snap free _ rfl rfl).only (throttleOn_only _)
  | reset =>
    obtain ⟨wf, e⟩ := resetPiece_eq s
    rw [e]
    exact ⟨List.nodup_nil, fun k => by simp [tab, heldSlots]⟩
  | _ => exact h

theorem kept_slotsHeld : Kept SlotsHeld :=
  .of_uncounted (fun _ _ h => h) (fun _ _ => Quiet.slotsHeld) (fun _ _ => Work.slotsHeld) (fun _ _ h => h) (fun _ _ h => h)
    (fun _ _ => reset_slotsHeld)

/-- Settles O7: a record takes a free slot as it joins the list, and gives it up as it leaves. -/
theorem stepKeepsSlotsHeld : Obligations.StepKeepsSlotsHeld :=
  fun _ _ h st => kept_slotsHeld.step (fun _ _ h => h) h st

/-! ## Fill counts (R12) and the throttle in SUSPENDED (R69, R70) -/

theorem FillBounded.congr {s t : State} (h : FillBounded s) (pipe : t.pipe.fill = s.pipe.fill)
    (chans : t.pipe.chans = s.pipe.chans) : FillBounded t := by
  unfold FillBounded at *
  rw [pipe, chans]
  exact h

theorem fillBounded_emptyFill (s : State) : FillBounded (emptyFill s) :=
  ⟨Nat.zero_le _, fun c => by simp [emptyFill, tab]⟩

theorem Quiet.fillBounded {s t : State} (c : Quiet s t) (h : FillBounded s) : FillBounded t := by
  cases c with
  | pipe f _ _ _ _ fill => exact fill h
  | pipeSettings f _ _ chans fill => exact h.congr fill chans
  | conds f _ _ => exact h.congr (by rw [(changeConds_only f s).pipe]) (by rw [(changeConds_only f s).pipe])
  | throttleOn => exact h.congr (by rw [(throttleOn_only s).pipe]) (by rw [(throttleOn_only s).pipe])
  | throttleRelax => exact h.congr (by rw [(throttleRelax_only s).pipe]) (by rw [(throttleRelax_only s).pipe])
  | primingTest => rcases primingTest_cases s with e | ⟨-, -, e⟩ <;> rw [e] <;> exact h
  | acqDeparture => rcases acqDeparture_cases s with e | ⟨-, e⟩ <;> rw [e] <;> exact h
  | startRun =>
    rcases startRun_cases s with ⟨-, e⟩ | ⟨-, wf, e⟩ <;> rw [e] <;> exact fillBounded_emptyFill (s.mapAcq _)
  | finishTrms st p => obtain ⟨f, e⟩ := finishTrms_ctl st p s; rw [e]; exact h
  | _ => exact h

theorem SuspendedThrottled.congr {s t : State} (h : SuspendedThrottled s) (acq : t.acq.state = s.acq.state)
    (throttle : t.aq.throttle = s.aq.throttle) : SuspendedThrottled t := by
  unfold SuspendedThrottled at *
  rw [acq, throttle]
  exact h

theorem suspendedThrottled_of_ne {s : State} (h : s.acq.state ≠ .suspended) : SuspendedThrottled s :=
  fun e => absurd e h

/-- The throttle is relaxed outside SUSPENDED alone. -/
theorem SuspendedThrottled.relax {s : State} (h : SuspendedThrottled s) : SuspendedThrottled (throttleRelax s) := by
  rcases throttleRelax_cases s with e | ⟨ne, wf, e⟩ <;> rw [e]
  · exact h
  · exact suspendedThrottled_of_ne ne

theorem Quiet.suspendedThrottled {s t : State} (c : Quiet s t) (h : SuspendedThrottled s) : SuspendedThrottled t := by
  cases c with
  | queue f _ _ _ throttle _ => exact h.congr rfl throttle
  | conds f _ _ => exact changeConds_suspendedThrottled f s h
  | throttleOn => exact fun _ => throttleOn_throttle s
  | throttleRelax => exact h.relax
  | primingTest =>
    rcases primingTest_cases s with e | ⟨-, -, e⟩ <;> rw [e]
    · exact h
    · exact suspendedThrottled_of_ne (by simp [setAcq])
  | acqDeparture =>
    rcases acqDeparture_cases s with e | ⟨-, e⟩ <;> rw [e]
    · exact h
    · exact suspendedThrottled_of_ne (by simp [setAcq])
  | startRun =>
    rcases startRun_cases s with ⟨-, e⟩ | ⟨-, wf, e⟩ <;> rw [e]
    · exact suspendedThrottled_of_ne (by simp [setAcq])
    · exact fun _ => rfl
  | finishTrms st p => obtain ⟨f, e⟩ := finishTrms_ctl st p s; rw [e]; exact h
  | _ => exact h

theorem Work.suspendedThrottled {s t : State} (c : Work s t) (h : SuspendedThrottled s) : SuspendedThrottled t := by
  cases c with
  | removeHead =>
    rcases removeHead_cases s with ⟨-, e⟩ | ⟨r, rest, hr, e⟩
    · rw [e]; exact h
    · have dropped : SuspendedThrottled (s.mapAq (dropHead r rest)) := h.congr rfl (dropHead_other r rest s.aq).2.2
      rcases e with e | e <;> rw [e]
      · exact dropped
      · exact dropped.relax
  | appendRecord r snap _ _ =>
    obtain ⟨mark, t, rfl, e | e⟩ := appendRecord_cases r snap s <;> rw [e]
    · exact h
    · exact fun _ => throttleOn_throttle _
  | enter x _ hx => exact suspendedThrottled_of_ne (by rcases hx with rfl | ⟨rfl, -⟩ <;> simp [setAcq])
  | reset => exact suspendedThrottled_of_ne (by simp [setAcq])
  | _ => exact h

theorem kept_fillBounded : Kept FillBounded :=
  .of_uncounted (fun _ _ h => h) (fun _ _ => Quiet.fillBounded) (fun _ _ c h => h.congr (by rw [c.pipe]) (by rw [c.pipe]))
    (fun _ _ h => h) (fun _ _ h => h) (fun _ _ => reset_fillBounded)

theorem kept_suspendedThrottled : Kept SuspendedThrottled :=
  .of_uncounted (fun _ _ h => h) (fun _ _ => Quiet.suspendedThrottled) (fun _ _ => Work.suspendedThrottled) (fun _ _ h => h)
    (fun _ _ h => h) (fun _ _ => reset_suspendedThrottled)

/-- Settles O8: the fill and refill counts run up together and are emptied together, and the throttle is relaxed outside
SUSPENDED alone. -/
theorem stepKeepsFillAndThrottle : Obligations.StepKeepsFillAndThrottle :=
  fun _ _ h st =>
    ⟨kept_fillBounded.step (fun _ _ h => h) h.1 st, kept_suspendedThrottled.step (fun _ _ h => h) h.2 st⟩

end Sys2Proof.Machine
end


section
/-!
R74's balance of the accepts and the capacities of the stores; the receive buffer apart, which is the one store of the Control
Port.
-/

namespace Sys2Proof.Machine

/-! ## The balance of the accepts (R74) -/

theorem AcceptsBalance.congr {s t : State} (h : AcceptsBalance s) (counters : t.cond.counters = s.cond.counters) :
    AcceptsBalance t := by
  unfold AcceptsBalance at *
  rw [counters]
  exact h

/-- A chain of changes that moves the throttle at most leaves the counters. -/
theorem changeConds_counters (f : CondTable → CondTable) (s : State) :
    (changeConds f s).cond.counters = (f s.cond).counters := by rw [changeConds_cond]

theorem Quiet.acceptsBalance {s t : State} (c : Quiet s t) (h : AcceptsBalance s) : AcceptsBalance t := by
  cases c with
  | conds f _ keeps => exact h.congr (by rw [changeConds_cond, keeps])
  | tally f _ balanced => exact balanced _ h
  | throttleOn => exact h.congr (by simp)
  | throttleRelax => exact h.congr (by simp)
  | primingTest => rcases primingTest_cases s with e | ⟨-, -, e⟩ <;> rw [e] <;> exact h
  | acqDeparture => rcases acqDeparture_cases s with e | ⟨-, e⟩ <;> rw [e] <;> exact h
  | startRun => rcases startRun_cases s with ⟨-, e⟩ | ⟨-, wf, e⟩ <;> rw [e] <;> exact h
  | finishTrms st p => obtain ⟨f, e⟩ := finishTrms_ctl st p s; rw [e]; exact h
  | _ => exact h

theorem Work.cond {s t : State} (c : Work s t) : t.cond = s.cond := by
  cases c with
  | removeHead =>
    rcases removeHead_cases s with ⟨-, e⟩ | ⟨r, rest, -, e | e⟩ <;> rw [e]
    · rfl
    · exact throttleRelax_cond _
  | appendRecord r snap _ _ =>
    obtain ⟨mark, t, rfl, e | e⟩ := appendRecord_cases r snap s <;> rw [e]
    · rfl
    · exact throttleOn_cond _
  | reset => obtain ⟨wf, e⟩ := resetPiece_eq s; rw [e]
  | _ => rfl

theorem Pieces.acceptsBalance {s t : State} (m : Pieces s t) (h : AcceptsBalance s) : AcceptsBalance t := by
  induction m with
  | refl => exact h
  | tail _ p ih => exact p.elim (fun q => q.acceptsBalance ih) fun w => ih.congr (by rw [w.cond])

/-- An accept adds one to ACC_SEEN, and one to REC_MADE or ACC_NOREC. -/
theorem acceptArrival_acceptsBalance (e : EventNum) (s : State) (h : AcceptsBalance s) :
    AcceptsBalance (acceptArrival e s) := by
  obtain ⟨u, v, -, ⟨seen, made, noRec⟩, hv, after⟩ := acceptArrival_pieces e s
  refine after.acceptsBalance ?_
  unfold AcceptsBalance at *
  rcases hv with rfl | rfl
  · show u.cond.counters.accSeen = u.cond.counters.recMade + (u.cond.counters.accNoRec + 1)
    rw [seen, made, noRec, h, BitVec.add_assoc]
  · show u.cond.counters.accSeen = u.cond.counters.recMade + 1 + u.cond.counters.accNoRec
    rw [seen, made, noRec, h, BitVec.add_assoc, BitVec.add_assoc, BitVec.add_comm 1]

theorem kept_acceptsBalance : Kept AcceptsBalance :=
  .of_pieces (fun _ _ h => h) (fun _ _ => Quiet.acceptsBalance) (fun _ _ c h => h.congr (by rw [c.cond]))
    (fun _ _ h => h) acceptArrival_acceptsBalance (fun _ _ => reset_acceptsBalance)

/-! ## The stores of the data path -/

/-- Every store within its capacity, the receive buffer apart. -/
def StoresFit (s : State) : Prop :=
  s.aq.records.length ≤ 32 ∧ s.aq.history.length ≤ s.aq.ruleK ∧ s.list.staged.length ≤ 32 ∧ s.list.active.length ≤ 32 ∧
    s.tx.buffer.length ≤ 4096 ∧ s.tx.credits ≤ 15 ∧ s.inj.pending.length ≤ 8

theorem withinCapacity_iff (s : State) : WithinCapacity s ↔ StoresFit s ∧ s.ctl.buffer.length ≤ 2 := by
  unfold WithinCapacity StoresFit
  constructor
  · rintro ⟨records, history, staged, active, words, credits, pending, frames⟩
    exact ⟨⟨records, history, staged, active, words, credits, pending⟩, frames⟩
  · rintro ⟨⟨records, history, staged, active, words, credits, pending⟩, frames⟩
    exact ⟨records, history, staged, active, words, credits, pending, frames⟩

/-- What the stores need of a change of conditions or throttle: it moves none of them. -/
theorem StoresFit.only {s t : State} (h : StoresFit s) (o : OnlyConditions s t) : StoresFit t := by
  obtain ⟨cond, st, th, wf, rfl⟩ := o
  exact h

theorem Quiet.storesFit {s t : State} (c : Quiet s t) (h : StoresFit s) : StoresFit t := by
  obtain ⟨records, history, staged, active, words, credits, pending⟩ := h
  have h : StoresFit s := ⟨records, history, staged, active, words, credits, pending⟩
  cases c with
  | inj f _ fits => exact ⟨records, history, staged, active, words, credits, fits pending⟩
  | list f _ fits =>
    exact ⟨records, history, (fits staged active).1, (fits staged active).2, words, credits, pending⟩
  | queue f _ keepsRecords _ _ fits =>
    exact ⟨keepsRecords ▸ records, fits history, staged, active, words, credits, pending⟩
  | tx f _ keepsBuffer fits _ => exact ⟨records, history, staged, active, keepsBuffer ▸ words, fits credits, pending⟩
  | conds f _ _ => exact h.only (changeConds_only f s)
  | throttleOn => exact h.only (throttleOn_only s)
  | throttleRelax => exact h.only (throttleRelax_only s)
  | primingTest => rcases primingTest_cases s with e | ⟨-, -, e⟩ <;> rw [e] <;> exact h
  | acqDeparture => rcases acqDeparture_cases s with e | ⟨-, e⟩ <;> rw [e] <;> exact h
  | startRun => rcases startRun_cases s with ⟨-, e⟩ | ⟨-, wf, e⟩ <;> rw [e] <;> exact h
  | finishTrms st p => obtain ⟨f, e⟩ := finishTrms_ctl st p s; rw [e]; exact h
  | _ => exact h

theorem Work.storesFit {s t : State} (c : Work s t) (h : StoresFit s) : StoresFit t := by
  obtain ⟨records, history, staged, active, words, credits, pending⟩ := h
  have h : StoresFit s := ⟨records, history, staged, active, words, credits, pending⟩
  cases c with
  | words f _ _ fits =>
    exact ⟨records, history, staged, active, (fits words credits).1, (fits words credits).2, pending⟩
  | removeHead =>
    rcases removeHead_cases s with ⟨-, e⟩ | ⟨r, rest, hr, e⟩
    · rw [e]; exact h
    · obtain ⟨keepsHistory, keepsK, -⟩ := dropHead_other r rest s.aq
      have dropped : StoresFit (s.mapAq (dropHead r rest)) := by
        refine ⟨?_, ?_, staged, active, words, credits, pending⟩
        · rw [State.mapAq_aq, dropHead_records]
          rw [hr, List.length_cons] at records
          omega
        · rw [State.mapAq_aq, keepsHistory, keepsK]
          exact history
      rcases e with e | e <;> rw [e]
      · exact dropped
      · exact dropped.only (throttleRelax_only _)
  | appendRecord r snap _ room _ =>
    obtain ⟨mark, t, rfl, e⟩ := appendRecord_cases r snap s
    have added : StoresFit (s.mapAq fun q =>
        { q with records := q.records ++ [r], gap := 0, recordMark := max q.recordMark (q.records.length + 1),
                 slotMark := mark, snaps := fillSlot r.kind snap q.snaps }) := by
      refine ⟨?_, history, staged, active, words, credits, pending⟩
      simp only [State.mapAq_aq, List.length_append, List.length_cons, List.length_nil]
      omega
    rcases e with e | e <;> rw [e]
    · exact added
    · exact added.only (throttleOn_only _)
  | reset =>
    obtain ⟨wf, e⟩ := resetPiece_eq s
    rw [e]
    exact ⟨Nat.zero_le _, Nat.zero_le _, staged, active, (List.length_take_le' _ _).trans words, Nat.zero_le _, pending⟩
  | _ => exact h

theorem releaseBlock_storesFit {s : State} {n : Nat} (h : StoresFit s) : StoresFit (releaseBlock n s) := by
  obtain ⟨records, history, staged, active, words, credits, pending⟩ := h
  exact ⟨records, history, staged, active, (s.tx.buffer.drop_sublist n).length_le.trans words, credits, pending⟩

theorem powerOn_storesFit (s : State) : StoresFit (powerOn s) :=
  ((withinCapacity_iff _).1 (show WithinCapacity (powerOn s) from by simp [WithinCapacity, powerOn, State.reset])).1

theorem kept_storesFit : Kept StoresFit :=
  .of_uncounted (fun _ _ h => h) (fun _ _ => Quiet.storesFit) (fun _ _ => Work.storesFit)
    (fun _ _ h => releaseBlock_storesFit h) (fun _ _ h => h) fun s _ => powerOn_storesFit s

end Sys2Proof.Machine
end


section
/-!
The Control Port: what the rest of the part leaves of it, and the rules of its own (R193, R194), which no rule of the data path
speaks of.
-/

namespace Sys2Proof.Machine

/-! ## What the rest of the part does at the port -/

/-- The port is left as it is, unless the reply of trms is sent; and a block begun stays begun. -/
def PortMoved (s t : State) : Prop :=
  t.ctl.buffer = s.ctl.buffer ∧ t.ctl.receiver = s.ctl.receiver ∧
    (t.ctl.executing = s.ctl.executing ∨ ∃ n, t.ctl.executing = .sending n) ∧
      (t.tx.begun = s.tx.begun ∨ t.tx.begun.isSome = true)

theorem PortMoved.refl (s : State) : PortMoved s s := ⟨rfl, rfl, .inl rfl, .inl rfl⟩

theorem PortMoved.of_eq {s t : State} (ctl : t.ctl = s.ctl) (begun : t.tx.begun = s.tx.begun) : PortMoved s t := by
  unfold PortMoved
  rw [ctl, begun]
  exact PortMoved.refl s

theorem PortMoved.trans {s t u : State} (h1 : PortMoved s t) (h2 : PortMoved t u) : PortMoved s u := by
  obtain ⟨buffer1, receiver1, executing1, begun1⟩ := h1
  obtain ⟨buffer2, receiver2, executing2, begun2⟩ := h2
  refine ⟨buffer2.trans buffer1, receiver2.trans receiver1, ?_, ?_⟩
  · rcases executing2 with e | e
    · rw [e]; exact executing1
    · exact .inr e
  · rcases begun2 with e | e
    · rw [e]; exact begun1
    · exact .inr e

theorem PortMoved.only {s t : State} (h : OnlyConditions s t) : PortMoved s t := by
  obtain ⟨cond, st, th, wf, rfl⟩ := h
  exact .of_eq rfl rfl

theorem finishTrms_portMoved (st : Status) (p : List Byte) (s : State) : PortMoved s (finishTrms st p s) := by
  unfold finishTrms
  split
  · exact ⟨rfl, rfl, .inr ⟨_, rfl⟩, .inl rfl⟩
  all_goals exact .refl s

theorem Quiet.portMoved {s t : State} (c : Quiet s t) : PortMoved s t := by
  cases c with
  | tx f _ _ _ keepsBegun => exact ⟨rfl, rfl, .inl rfl, keepsBegun⟩
  | conds f _ _ => exact .only (changeConds_only f s)
  | throttleOn => exact .only (throttleOn_only s)
  | throttleRelax => exact .only (throttleRelax_only s)
  | primingTest => rcases primingTest_cases s with e | ⟨-, -, e⟩ <;> rw [e] <;> exact .of_eq rfl rfl
  | acqDeparture => rcases acqDeparture_cases s with e | ⟨-, e⟩ <;> rw [e] <;> exact .of_eq rfl rfl
  | startRun => rcases startRun_cases s with ⟨-, e⟩ | ⟨-, wf, e⟩ <;> rw [e] <;> exact .of_eq rfl rfl
  | finishTrms st p => exact finishTrms_portMoved st p s
  | _ => exact .of_eq rfl rfl

theorem Work.portMoved {s t : State} (c : Work s t) : PortMoved s t := by
  cases c with
  | words f _ keepsBegun _ => exact .of_eq rfl keepsBegun
  | removeHead =>
    rcases removeHead_cases s with ⟨-, e⟩ | ⟨r, rest, -, e | e⟩ <;> rw [e]
    · exact .refl s
    · exact .of_eq rfl rfl
    · exact .trans (t := s.mapAq _) (.of_eq rfl rfl) (.only (throttleRelax_only _))
  | appendRecord r snap _ _ =>
    obtain ⟨mark, t, rfl, e | e⟩ := appendRecord_cases r snap s <;> rw [e]
    · exact .of_eq rfl rfl
    · exact .trans (t := s.mapAq _) (.of_eq rfl rfl) (.only (throttleOn_only _))
  | reset => obtain ⟨wf, e⟩ := resetPiece_eq s; rw [e]; exact .of_eq rfl rfl
  | _ => exact .of_eq rfl rfl

theorem Pieces.portMoved {s t : State} (m : Pieces s t) : PortMoved s t := by
  induction m with
  | refl => exact .refl s
  | tail _ p ih => exact ih.trans (p.elim Quiet.portMoved Work.portMoved)

theorem Change.portMoved {s t : State} (c : Change s t) : PortMoved s t := by
  cases c with
  | quiet q => exact q.portMoved
  | recordStart => exact (recordStart_pieces s).portMoved
  | fragmentAppend => exact (fragmentAppend_pieces s).portMoved
  | completeEntry => exact (completeEntry_pieces s).portMoved
  | drainTest => exact (drainTest_pieces s).portMoved
  | stopRun => exact (stopRun_pieces s).portMoved
  | reset => exact (reset_pieces s).portMoved
  | accept e =>
    obtain ⟨u, v, before, -, rfl | rfl, after⟩ := acceptArrival_pieces e s
    all_goals exact .trans (.of_eq rfl rfl) (before.portMoved.trans (.trans (.of_eq rfl rfl) after.portMoved))

theorem Moves.portMoved {s t : State} (m : Moves s t) : PortMoved s t := by
  induction m with
  | refl => exact .refl s
  | tail _ c ih => exact ih.trans c.portMoved

/-- A request answered leaves receiver and buffer, and a reply or a request still in execution (R194). -/
theorem Answered.port {s t : State} (a : Answered s t) :
    t.ctl.buffer = s.ctl.buffer ∧ t.ctl.receiver = s.ctl.receiver ∧ t.ctl.executing ≠ .none ∧ rsetDue t = false := by
  obtain ⟨u, x, l, m, rfl, executing, waits⟩ := a
  obtain ⟨buffer, receiver, -, -⟩ := m.portMoved
  refine ⟨buffer, receiver, executing, ?_⟩
  cases x with
  | rset tag b =>
    rcases waits tag b rfl with h | h
    · cases hb : u.tx.begun <;> simp_all [rsetDue]
    · simp [rsetDue, h]
  | _ => rfl

/-! ## A rule of the port -/

/-- What the completion of a block and a frame boundary leave of the port. -/
def PortServes (s t : State) : Prop :=
  t.ctl.buffer = s.ctl.buffer ∧ (t.ctl.executing = .none → s.ctl.executing = .none)

/-- A rule of the Control Port, kept by what the rest of the part does at it and by what it does itself. -/
structure PortKept (P : State → Prop) : Prop where
  moved : ∀ s t, PortMoved s t → P s → P t
  answered : ∀ s t, Answered s t → P s → P t
  receiver : ∀ r s, P s → P (setReceiver r s)
  held : ∀ f s, portFree s = false → P s → P (receiveFrame f s)
  before : ∀ s, P s → P (beforeEvent s)
  completed : ∀ s t, PortServes s t → P s → P (completeRset t)
  idle : ∀ s, P s → P (idleTime s)
  power : ∀ s, P s → P (powerOn s)

theorem PortMoved.serves {s t : State} (h : PortMoved s t) : PortServes s t := by
  obtain ⟨buffer, -, executing, -⟩ := h
  refine ⟨buffer, fun e => ?_⟩
  rcases executing with same | ⟨n, sending⟩
  · exact same.symm.trans e
  · simp [sending] at e

theorem completeBlock_serves (s : State) : PortServes s (completeBlock s) := by
  rcases completeBlock_cases s with e | ⟨n, -, m⟩
  · rw [e]; exact (PortMoved.refl s).serves
  · exact m.portMoved.serves

theorem sendThrottle_serves (f : ThrottleFrame) (s : State) : PortServes s (sendThrottle f s) :=
  ⟨rfl, fun e => by cases h : s.ctl.executing <;> simp_all [sendThrottle, Execution.busyOffSent]⟩

theorem frameBoundary_serves (s : State) : PortServes s (frameBoundary s) := by
  unfold frameBoundary
  split
  · exact (PortMoved.refl s).serves
  · exact sendThrottle_serves _ s
  · split
    · exact (beginBlock_moves s).portMoved.serves
    · exact (sendIdle_moves s).portMoved.serves

namespace PortKept

variable {P : State → Prop} (k : PortKept P)
include k

theorem moves {s t : State} (m : Moves s t) (h : P s) : P t := k.moved _ _ m.portMoved h

theorem takeFound (s : State) (f : Found) (h : P s) : P (takeFound s f) := by
  have before := k.before s h
  cases f with
  | discarded => exact k.moves (occur_moves _ _ _) before
  | complete g =>
    show P (if _ then _ else _)
    split
    · exact k.answered _ _ (runRequest_answered g _) before
    · next taken => exact k.held g _ (by simpa using taken) before

theorem receiveBytes (bs : List Byte) (s : State) (h : P s) : P (receiveBytes bs s) := by
  have found : ∀ (l : List Found) s, P s → P (l.foldl Machine.takeFound s) := by
    intro l
    induction l with
    | nil => exact fun _ h => h
    | cons f t ih => exact fun s h => ih _ (k.takeFound s f h)
  exact k.receiver _ _ (found _ _ (k.receiver none s h))

theorem interByteTimeout (s : State) (h : P s) : P (interByteTimeout s) := by
  unfold Machine.interByteTimeout
  split
  · exact h
  · exact k.moves (occur_moves _ _ _) (k.receiver none s h)

theorem serve {name : BitVec 32} {b : Bool} {r : Request} {body : Request → State → State}
    (ha : ∀ s, b = true ∨ inManual s = false → Answered s (body r s)) (s : State) (h : P s) :
    P (serve name b r body s) := by
  have before := k.before s h
  show P (if _ then _ else _)
  split
  · exact k.answered _ _ (takeRequest_answered (ha _)) before
  · next taken => exact k.held _ _ (by simpa using taken) before

theorem exec (c : Instr) (s : State) (h : P s) : ∃ t, exec c s = .next t ∧ P t := by
  have before := k.before s h
  cases meaning c with
  | power _ e => exact ⟨_, e s, k.power s h⟩
  | event _ effect e m => exact ⟨_, e s, k.moves (m _) before⟩
  | frameBoundary _ e => exact ⟨_, e s, k.completed _ _ (frameBoundary_serves _) before⟩
  | blockCompletion _ e => exact ⟨_, e s, k.completed _ _ (completeBlock_serves _) before⟩
  | rsetComplete _ e => exact ⟨_, e s, k.completed _ _ (PortMoved.refl _).serves before⟩
  | bytes _ bs e => exact ⟨_, e s, k.receiveBytes bs s h⟩
  | timeout _ e => exact ⟨_, e s, k.interByteTimeout _ before⟩
  | request name b r body e _ answered => exact ⟨_, e s, k.serve answered s h⟩
  | nothing e _ => exact ⟨_, e s, h⟩

theorem step (pending : ∀ f s, P s → P (s.mapPending f)) {s t : State} (h : P s) (st : step s = .next t) : P t := by
  unfold Machine.step at st
  split at st
  · obtain rfl := Host.Outcome.next.inj st
    exact k.idle s h
  · next c rest _ =>
    obtain ⟨u, hu, hp⟩ := k.exec c _ (pending (fun _ => rest) s h)
    obtain rfl := Host.Outcome.next.inj (hu.symm.trans st)
    exact hp

end PortKept

/-! ## The port's own changes -/

/-- The port holds no complete rset, and no frame where it is free (R49, R194). -/
theorem portSettled_of_executing {s : State} (free : s.ctl.executing ≠ .none) (due : rsetDue s = false) : PortSettled s :=
  ⟨due, fun e => absurd e free⟩

theorem answer_portSettled (tag : Byte) (st : Status) (p : List Byte) (s : State) : PortSettled (answer tag st p s) :=
  portSettled_of_executing (by simp [answer]) rfl

theorem Answered.portSettled {s t : State} (a : Answered s t) : PortSettled t := by
  obtain ⟨-, -, executing, due⟩ := a.port
  exact portSettled_of_executing executing due

theorem executeOldest_portSettled (f : Frame) (rest : List Frame) (s : State) : PortSettled (executeOldest f rest s) := by
  obtain ⟨-, -, executing, due⟩ := (runRequest_answered f (setBuffer [] (setExecuting .none s))).port
  exact portSettled_of_executing executing due

theorem formCclr_cases (s : State) : formCclr s = s ∨ ∃ tag, formCclr s = cclrReply tag s := by
  unfold formCclr
  split
  · exact .inr ⟨_, rfl⟩
  all_goals exact .inl rfl

theorem formCclr_buffer (s : State) : (formCclr s).ctl.buffer = s.ctl.buffer := by
  rcases formCclr_cases s with e | ⟨tag, e⟩ <;> rw [e]; rfl

theorem formCclr_due {s : State} (h : rsetDue s = false) : rsetDue (formCclr s) = false := by
  rcases formCclr_cases s with e | ⟨tag, e⟩ <;> rw [e]
  · exact h
  · rfl

theorem eventComes_due {s : State} (h : rsetDue s = false) :
    rsetDue (setExecuting s.ctl.executing.eventComes s) = false := by
  cases e : s.ctl.executing <;> simp_all [rsetDue, setExecuting, Execution.eventComes]

/-- A port that may not execute goes on with what it has. -/
theorem eventComes_ne_none {s : State} (h : mayExecute s = false) : s.ctl.executing.eventComes ≠ .none := by
  cases e : s.ctl.executing <;> simp_all [mayExecute, Execution.eventComes]

theorem portWork_portSettled (held : List Frame) (s : State) (buffer : s.ctl.buffer = held) (due : rsetDue s = false) :
    PortSettled (portWork held s) := by
  induction held generalizing s with
  | nil =>
    refine ⟨?_, fun _ => (formCclr_buffer s).trans buffer⟩
    show rsetDue (setExecuting (if _ then _ else _) _) = false
    split
    · rfl
    · exact eventComes_due (formCclr_due due)
  | cons f rest ih =>
    unfold portWork
    dsimp only
    split
    · exact ih _ rfl (executeOldest_portSettled _ _ _).1
    · next busy =>
      exact portSettled_of_executing (eventComes_ne_none (by simpa using busy)) (eventComes_due (formCclr_due due))

/-- The port takes frames from its buffer and adds none. -/
theorem portWork_buffer (held : List Frame) (s : State) (buffer : s.ctl.buffer = held) :
    (portWork held s).ctl.buffer.length ≤ held.length := by
  induction held generalizing s with
  | nil => exact (congrArg List.length ((formCclr_buffer s).trans buffer)).le
  | cons f rest ih =>
    unfold portWork
    dsimp only
    split
    · exact (ih _ rfl).trans (Nat.le_succ _)
    · exact (congrArg List.length ((formCclr_buffer s).trans buffer)).le

theorem PortSettled.congr {s t : State} (h : PortSettled s) (buffer : t.ctl.buffer = s.ctl.buffer)
    (executing : t.ctl.executing = s.ctl.executing) (begun : t.tx.begun = s.tx.begun) : PortSettled t := by
  unfold PortSettled rsetDue at *
  rw [buffer, executing, begun]
  exact h

theorem PortMoved.portSettled {s t : State} (m : PortMoved s t) (h : PortSettled s) : PortSettled t := by
  obtain ⟨due, served⟩ := h
  obtain ⟨buffer, -, executing, begun⟩ := m
  rcases executing with same | ⟨n, sending⟩
  · refine ⟨?_, fun e => buffer.trans (served (same.symm.trans e))⟩
    unfold rsetDue at *
    rw [same]
    rcases begun with e | e
    · rw [e]; exact due
    · cases hx : s.ctl.executing <;> cases hb : t.tx.begun <;> simp_all
  · exact portSettled_of_executing (by simp [sending]) (by simp [rsetDue, sending])

theorem occur_portMoved (c : Cond) (ev : Option EventNum) (s : State) : PortMoved s (occur c ev s) :=
  .only (occur_only c ev s)

/-- A frame held waits at a busy port. -/
theorem receiveFrame_portSettled (f : Frame) (s : State) (busy : portFree s = false) (h : PortSettled s) :
    PortSettled (receiveFrame f s) := by
  unfold receiveFrame
  split
  · exact portSettled_of_executing (by simpa [portFree] using busy) h.1
  · exact (occur_portMoved _ _ s).portSettled h

theorem completeRset_portSettled {s t : State} (m : PortServes s t) (h : PortSettled s) : PortSettled (completeRset t) := by
  obtain ⟨buffer, free⟩ := m
  have served : t.ctl.executing = .none → t.ctl.buffer = [] := fun e => buffer.trans (h.2 (free e))
  unfold completeRset
  split
  · split
    · exact answer_portSettled _ _ _ t
    · next due => exact ⟨by simpa using due, served⟩
  all_goals next e => exact ⟨by simp [rsetDue, e], served⟩

theorem idleTime_portSettled (s : State) (h : PortSettled s) : PortSettled (idleTime s) := by
  unfold idleTime
  split
  · exact answer_portSettled _ _ _ s
  · next _ _ _ empty => exact ⟨rfl, fun _ => empty⟩
  · exact executeOldest_portSettled _ _ s
  · exact h
  · exact executeOldest_portSettled _ _ s
  · exact h
  · exact h

theorem portKept_portSettled : PortKept PortSettled where
  moved _ _ := PortMoved.portSettled
  answered _ _ a _ := a.portSettled
  receiver _ _ h := h.congr rfl rfl rfl
  held := receiveFrame_portSettled
  before s h := portWork_portSettled _ s rfl h.1
  completed _ _ := completeRset_portSettled
  idle := idleTime_portSettled
  power _ _ := ⟨rfl, fun _ => rfl⟩

/-- The receive buffer within its capacity (R193). -/
def FramesFit (s : State) : Prop := s.ctl.buffer.length ≤ 2

theorem completeRset_buffer (s : State) : (completeRset s).ctl.buffer = s.ctl.buffer := by
  unfold completeRset
  split
  · split <;> rfl
  all_goals rfl

theorem receiveFrame_framesFit (f : Frame) (s : State) (h : FramesFit s) : FramesFit (receiveFrame f s) := by
  unfold receiveFrame FramesFit
  split
  · next room =>
    have room : s.ctl.buffer.length < 2 := room
    simp only [State.mapCtl_ctl, List.length_append, List.length_cons, List.length_nil]
    omega
  · rw [(occur_portMoved _ _ s).1]; exact h

theorem idleTime_framesFit (s : State) (h : FramesFit s) : FramesFit (idleTime s) := by
  unfold FramesFit at h
  have tail : ∀ f rest, s.ctl.buffer = f :: rest → FramesFit (executeOldest f rest s) := by
    intro f rest e
    rw [e, List.length_cons] at h
    exact Nat.le_of_succ_le h
  unfold idleTime
  split
  · exact h
  · exact h
  · next e => exact tail _ _ e
  · exact h
  · next e => exact tail _ _ e
  · exact h
  · exact h

theorem portKept_framesFit : PortKept FramesFit where
  moved _ _ m h := by unfold FramesFit; rw [m.1]; exact h
  answered _ _ a h := by unfold FramesFit; rw [a.port.1]; exact h
  receiver _ _ h := h
  held f s _ h := receiveFrame_framesFit f s h
  before s h := (portWork_buffer _ s rfl).trans h
  completed _ t m h := by unfold FramesFit; rw [completeRset_buffer, m.1]; exact h
  idle := idleTime_framesFit
  power _ _ := Nat.zero_le 2

/-- Settles O6: every record and gap is counted with the accept it comes of, and what joins a store first finds room there. -/
theorem stepKeepsBalanceAndCapacity : Obligations.StepKeepsBalanceAndCapacity := by
  refine ⟨fun _ _ h st => kept_acceptsBalance.step (fun _ _ h => h) h st, fun s t h st => ?_⟩
  obtain ⟨stores, frames⟩ := (withinCapacity_iff s).1 h
  exact (withinCapacity_iff t).2
    ⟨kept_storesFit.step (fun _ _ h => h) stores st, portKept_framesFit.step (fun _ _ h => h) frames st⟩

end Sys2Proof.Machine
end


section
/-!
The builder, the record list and the output buffer from one event to the next: between commands the builder has nothing to do
of itself (R141, R143 to R145), STANDBY is empty, and DRAINING owes something (R48).
-/

namespace Sys2Proof.Machine

/-! ## What leaves the work of the builder -/

/-- Builder, records and buffer stay, and neither STANDBY nor DRAINING is entered. -/
def LeavesWork (s t : State) : Prop :=
  t.builder = s.builder ∧ t.aq.records = s.aq.records ∧ t.tx.buffer = s.tx.buffer ∧
    (t.acq.state = .standby → s.acq.state = .standby) ∧ (t.acq.state = .draining → s.acq.state = .draining)

theorem LeavesWork.refl (s : State) : LeavesWork s s := ⟨rfl, rfl, rfl, id, id⟩

theorem LeavesWork.trans {s t u : State} (h1 : LeavesWork s t) (h2 : LeavesWork t u) : LeavesWork s u := by
  obtain ⟨builder1, records1, buffer1, standby1, draining1⟩ := h1
  obtain ⟨builder2, records2, buffer2, standby2, draining2⟩ := h2
  exact ⟨builder2.trans builder1, records2.trans records1, buffer2.trans buffer1, standby1 ∘ standby2,
    draining1 ∘ draining2⟩

/-- A change of the Condition Table neither enters nor leaves DRAINING. -/
theorem changeConds_draining (f : CondTable → CondTable) (s : State) :
    (changeConds f s).acq.state = .draining ↔ s.acq.state = .draining := by
  by_cases he : class3 (s.mapCond f) = class3 s
  · rw [changeConds_same f s he]; rfl
  · cases h3 : class3 s
    · rw [changeConds_raises f s h3 (by simpa [h3] using he)]
      cases hs : s.acq.state <;> simp [onClass3Raised, hs, enterSuspended]
    · rw [changeConds_clears f s h3 (by simpa [h3] using he)]
      cases hs : s.acq.state <;> simp [onClass3Cleared, hs]
      by_cases hl : s.acq.startL ≤ s.pipe.fill <;> simp [hl]

theorem LeavesWork.only {s t : State} (h : OnlyConditions s t) (standby : t.acq.state = .standby → s.acq.state = .standby)
    (draining : t.acq.state = .draining → s.acq.state = .draining) : LeavesWork s t := by
  obtain ⟨cond, st, th, wf, rfl⟩ := h
  exact ⟨rfl, rfl, rfl, standby, draining⟩

theorem changeConds_leavesWork (f : CondTable → CondTable) (s : State) : LeavesWork s (changeConds f s) :=
  .only (changeConds_only f s) (changeConds_standby f s).1 (changeConds_draining f s).1

theorem occur_leavesWork (c : Cond) (ev : Option EventNum) (s : State) : LeavesWork s (occur c ev s) :=
  changeConds_leavesWork _ s

theorem occurIf_leavesWork (b : Bool) (c : Cond) (ev : Option EventNum) (s : State) :
    LeavesWork s (occurIf b c ev s) := by
  unfold occurIf
  split
  · exact occur_leavesWork c ev s
  · exact .refl s

theorem tally_leavesWork (f : Counters → Counters) (s : State) : LeavesWork s (tally f s) := ⟨rfl, rfl, rfl, id, id⟩

theorem throttleRelax_leavesWork (s : State) : LeavesWork s (throttleRelax s) :=
  .only (throttleRelax_only s) (by simp) (by simp)

theorem setAcq_leavesWork (x : AcqState) (s : State) (h1 : x ≠ .standby) (h2 : x ≠ .draining) :
    LeavesWork s (setAcq x s) := ⟨rfl, rfl, rfl, fun e => absurd e h1, fun e => absurd e h2⟩

theorem Quiet.leavesWork {s t : State} (c : Quiet s t) : LeavesWork s t := by
  cases c with
  | queue f _ keepsRecords _ _ _ => exact ⟨rfl, keepsRecords, rfl, id, id⟩
  | tx f _ keepsBuffer _ _ => exact ⟨rfl, rfl, keepsBuffer, id, id⟩
  | conds f _ _ => exact changeConds_leavesWork f s
  | throttleOn => exact .only (throttleOn_only s) (by simp) (by simp)
  | throttleRelax => exact throttleRelax_leavesWork s
  | primingTest =>
    rcases primingTest_cases s with e | ⟨-, -, e⟩ <;> rw [e]
    · exact .refl s
    · exact setAcq_leavesWork _ s (by simp) (by simp)
  | acqDeparture =>
    rcases acqDeparture_cases s with e | ⟨-, e⟩ <;> rw [e]
    · exact .refl s
    · exact setAcq_leavesWork _ s (by simp) (by simp)
  | startRun =>
    rcases startRun_cases s with ⟨-, e⟩ | ⟨-, wf, e⟩ <;> rw [e]
    · exact .trans (t := copySettings s) ⟨rfl, rfl, rfl, id, id⟩ (setAcq_leavesWork _ _ (by simp) (by simp))
    · exact .trans (t := setThrottle true wf (copySettings s)) ⟨rfl, rfl, rfl, id, id⟩
        (setAcq_leavesWork .suspended _ (by simp) (by simp))
  | finishTrms st p => obtain ⟨f, e⟩ := finishTrms_ctl st p s; rw [e]; exact ⟨rfl, rfl, rfl, id, id⟩
  | _ => exact ⟨rfl, rfl, rfl, id, id⟩

/-! ## The builder's operations at builder, list and state -/

theorem enterStandby_builder (s : State) : (enterStandby s).builder = s.builder := (enterStandby_frame s).builder

theorem enterStandby_records (s : State) : (enterStandby s).aq.records = s.aq.records := by
  rw [(enterStandby_frame s).aq]

theorem enterStandby_buffer (s : State) : (enterStandby s).tx.buffer = s.tx.buffer := by
  rw [(enterStandby_frame s).tx]

theorem enterStandby_state (s : State) : (enterStandby s).acq.state = .standby := by
  rw [enterStandby_eq]
  split
  · exact (changeConds_standby _ _).2 (by rw [applyCommit]; rfl)
  · rfl

/-- The end of draining moves the acquisition state and the readout list. -/
theorem drainTest_work (s : State) :
    (drainTest s).builder = s.builder ∧ (drainTest s).aq.records = s.aq.records ∧ (drainTest s).tx.buffer = s.tx.buffer := by
  unfold drainTest
  split
  · exact ⟨enterStandby_builder s, enterStandby_records s, enterStandby_buffer s⟩
  · exact ⟨rfl, rfl, rfl⟩

/-- A record start begins a build in which nothing is counted yet. -/
theorem startRecord_build (r : Record) (s : State) :
    (startRecord r s).aq = s.aq ∧ (startRecord r s).acq = s.acq ∧
      ∃ b, (startRecord r s).builder.state = .building b ∧ b.emitted + b.suppressed = b.position := by
  refine ⟨by rw [startRecord_eq], by rw [startRecord_eq], ?_⟩
  unfold startRecord
  exact ⟨_, rfl, rfl⟩

theorem removeHead_records (s : State) : (removeHead s).aq.records = s.aq.records.tail := by
  rcases removeHead_cases s with ⟨h, e⟩ | ⟨r, rest, h, e⟩
  · rw [e, h]; rfl
  · have dropped : (s.mapAq (dropHead r rest)).aq.records = s.aq.records.tail := by
      rw [State.mapAq_aq, dropHead_records, h]; rfl
    rcases e with e | e <;> rw [e]
    · exact dropped
    · exact (throttleRelax_leavesWork _).2.1.trans dropped

/-- What an append leaves before the test for the end of draining (R145). -/
theorem appendFragment_eq (b : Build) (s : State) :
    ∃ u, appendFragment b s = drainTest u ∧ u.builder = { state := .idle, inFlight := none } ∧
      u.aq.records = s.aq.records.tail ∧ u.acq.state = s.acq.state := by
  refine ⟨_, rfl, rfl, removeHead_records _, ?_⟩
  show (removeHead _).acq.state = _
  rcases removeHead_cases (tally (fun c => { c with frags := c.frags + 1, words := c.words + BitVec.ofNat 32 b.length })
    (s.mapTx fun t => { t with buffer := t.buffer ++ fragmentWords b s.cond.summary s.tx.sourceId }))
    with ⟨-, e⟩ | ⟨r, rest, -, e | e⟩ <;> rw [e]
  · rfl
  · rfl
  · rw [throttleRelax_acq]; rfl

/-! ## The builder between commands -/

/-- An entry is in flight in a build alone. -/
def FlightInBuild (s : State) : Prop :=
  match s.builder.state with
  | .idle => s.builder.inFlight = none
  | .building _ => True
  | .ready _ => s.builder.inFlight = none

/-- What the builder goes on from. -/
def BuildSound (s : State) : Prop := FlightInBuild s ∧ BuildCounted s

theorem BuildSound.congr {s t : State} (h : BuildSound s) (builder : t.builder = s.builder) : BuildSound t := by
  unfold BuildSound FlightInBuild BuildCounted at *
  rw [builder]
  exact h

theorem buildSound_of_settled {s : State} (settled : BuilderSettled s) (counted : BuildCounted s) : BuildSound s := by
  refine ⟨?_, counted⟩
  unfold BuilderSettled at settled
  unfold FlightInBuild
  cases h : s.builder.state <;> simp_all

theorem buildSound_of_building {s : State} {b : Build} (h : s.builder.state = .building b)
    (counted : b.emitted + b.suppressed = b.position) : BuildSound s := by
  simp [BuildSound, FlightInBuild, BuildCounted, h, counted]

theorem buildSound_of_idle {s : State} (h : s.builder = { state := .idle, inFlight := none }) : BuildSound s := by
  simp [BuildSound, FlightInBuild, BuildCounted, h]

theorem buildSound_ready {s : State} {b : Build} (h : s.builder.state = .building b) (sound : BuildSound s) :
    BuildSound (s.mapBuilder fun _ => { state := .ready b, inFlight := none }) := by
  simp_all [BuildSound, FlightInBuild, BuildCounted]

theorem settleBuilder_buildSound (s : State) (h : BuildSound s) : BuildSound (settleBuilder s) :=
  settleBuilder_keeps BuildSound
    (fun s r _ _ _ _ => by
      obtain ⟨-, -, b, building, counted⟩ := startRecord_build r s
      exact buildSound_of_building building counted)
    (fun _ _ sound building _ => buildSound_ready building sound)
    (fun s b _ _ _ => by
      obtain ⟨u, e, idle, -, -⟩ := appendFragment_eq b s
      rw [e]
      exact buildSound_of_idle ((drainTest_work u).1.trans idle))
    s h

/-- The things still to happen to the records in the list, three to each at most. -/
def workLeft (s : State) : Nat :=
  match s.builder.state with
  | .idle => 3 * s.aq.records.length
  | .building _ => 3 * (s.aq.records.length - 1) + 2
  | .ready _ => 3 * (s.aq.records.length - 1) + 1

/-- Each thing the builder does leaves less to do, so that its fuel lasts until it has nothing left to do of itself. -/
theorem runBuilder_settled (k : Nat) (s : State) (sound : FlightInBuild s) (fuel : workLeft s < k) :
    BuilderSettled (runBuilder k s) := by
  induction k generalizing s with
  | zero => exact absurd fuel (Nat.not_lt_zero _)
  | succ k ih =>
    unfold runBuilder
    unfold FlightInBuild at sound
    unfold workLeft at fuel
    split
    · next idle =>
      rw [idle] at sound fuel
      split
      · next empty => simpa [BuilderSettled, idle, empty] using sound
      · next r rest first =>
        obtain ⟨queue, -, b, building, -⟩ := startRecord_build r s
        refine ih _ (by simp [FlightInBuild, building]) ?_
        simp only [workLeft, building, queue, first, List.length_cons] at fuel ⊢
        omega
    · next b building =>
      rw [building] at fuel
      split
      · refine ih _ rfl ?_
        simp only [workLeft, State.mapBuilder_builder, State.mapBuilder_aq] at fuel ⊢
        omega
      · next waits =>
        have waits : s.builder.inFlight.isSome = true := by
          simpa [buildDone, Option.isSome_iff_ne_none] using waits
        simpa [BuilderSettled, building] using waits
    · next b ready =>
      rw [ready] at sound fuel
      split
      · obtain ⟨u, e, idle, records, -⟩ := appendFragment_eq b s
        obtain ⟨builder, list, -⟩ := drainTest_work u
        rw [e]
        refine ih _ (by simp [FlightInBuild, builder, idle]) ?_
        simp only [workLeft, builder, idle, list, records, List.length_tail] at fuel ⊢
        omega
      · next full => simpa [BuilderSettled, ready, full] using sound

theorem settleBuilder_settled (s : State) (h : BuildSound s) :
    BuilderSettled (settleBuilder s) ∧ BuildCounted (settleBuilder s) := by
  refine ⟨runBuilder_settled _ s h.1 ?_, (settleBuilder_buildSound s h).2⟩
  unfold workLeft
  split <;> omega

/-! ## Accepts at the builder -/

theorem ruleCheck_leavesWork (e : EventNum) (s : State) : LeavesWork s (ruleCheck e s) := by
  unfold ruleCheck
  refine .trans (t := if _ then _ else _) ?_ ⟨rfl, rfl, rfl, id, id⟩
  split
  · exact (occur_leavesWork _ _ s).trans (tally_leavesWork _ _)
  · exact .refl s

theorem recordOccurrences_leavesWork (e : EventNum) (kind : RecordKind) (s : State) :
    LeavesWork s (recordOccurrences e kind s) := by
  rw [recordOccurrences_eq]
  refine .trans (t := countMade s) (tally_leavesWork _ s) ?_
  cases kind with
  | full k => exact .refl _
  | nosnap reason => exact (tally_leavesWork _ _).trans (occurIf_leavesWork _ _ _ _)

theorem appendRecord_frame (r : Record) (snap : Snapshot) (s : State) :
    (appendRecord r snap s).builder = s.builder ∧ (appendRecord r snap s).acq = s.acq := by
  obtain ⟨mark, t, rfl, e | e⟩ := appendRecord_cases r snap s <;> rw [e]
  · exact ⟨rfl, rfl⟩
  · exact ⟨(throttleOn_only _).builder, throttleOn_acq _⟩

theorem recordKind_some {v : Bool} {s : State} {kind : RecordKind} (h : recordKind v s = some kind) :
    s.acq.state ≠ .standby ∧ s.acq.state ≠ .draining := by
  unfold recordKind at h
  split at h <;> simp_all

/-- A full list makes a gap of the accept, the acquisition state a gap or a record (R58 to R60). -/
theorem decideAccept_cases (e : EventNum) (v : Bool) (s : State) :
    decideAccept e v s = occur .aqOverflow (some e) (makeGap s) ∨ decideAccept e v s = makeGap s ∨
      ∃ kind, recordKind v s = some kind ∧ decideAccept e v s = makeRecord e v kind s := by
  unfold decideAccept
  by_cases full : Config.maxRecords ≤ s.aq.records.length
  · exact .inl (if_pos full)
  · rw [if_neg full]
    cases recordKind v s with
    | none => exact .inr (.inl rfl)
    | some kind => exact .inr (.inr ⟨kind, rfl, rfl⟩)

/-- An accept leaves the work of the builder, or makes a record outside STANDBY and DRAINING, from which the builder goes
on. -/
theorem acceptArrival_cases (e : EventNum) (s : State) :
    LeavesWork s (acceptArrival e s) ∨
      ∃ u, acceptArrival e s = settleBuilder u ∧ u.builder = s.builder ∧ u.acq.state ≠ .standby ∧
        u.acq.state ≠ .draining := by
  have checked : LeavesWork s (ruleCheck e (countSeen s)) := (tally_leavesWork _ s).trans (ruleCheck_leavesWork e _)
  have gapped : LeavesWork s (makeGap (ruleCheck e (countSeen s))) := checked.trans ⟨rfl, rfl, rfl, id, id⟩
  have accept : acceptArrival e s = decideAccept e (ruleViolated s.aq s.timing.serial) (ruleCheck e (countSeen s)) := rfl
  rw [accept]
  rcases decideAccept_cases e (ruleViolated s.aq s.timing.serial) (ruleCheck e (countSeen s)) with
    h | h | ⟨kind, hk, h⟩ <;> rw [h]
  · exact .inl (gapped.trans (occur_leavesWork _ _ _))
  · exact .inl gapped
  · obtain ⟨notStandby, notDraining⟩ := recordKind_some hk
    have counted := recordOccurrences_leavesWork e kind (ruleCheck e (countSeen s))
    obtain ⟨builder, -, -, -, -⟩ := checked.trans counted
    obtain ⟨-, -, -, standby, draining⟩ := counted
    refine .inr ⟨_, rfl, ?_, ?_, ?_⟩
    · rw [(appendRecord_frame _ _ _).1]; exact builder
    · rw [(appendRecord_frame _ _ _).2]; exact fun e => notStandby (standby e)
    · rw [(appendRecord_frame _ _ _).2]; exact fun e => notDraining (draining e)

/-! ## The builder settled -/

/-- The builder has nothing to do of itself, and its counts add up. -/
def BuilderRule (s : State) : Prop := BuilderSettled s ∧ BuildCounted s

theorem BuilderRule.sound {s : State} (h : BuilderRule s) : BuildSound s := buildSound_of_settled h.1 h.2

theorem BuilderRule.congr {s t : State} (h : BuilderRule s) (builder : t.builder = s.builder)
    (records : t.aq.records = s.aq.records) (buffer : t.tx.buffer = s.tx.buffer) : BuilderRule t := by
  unfold BuilderRule BuilderSettled BuildCounted fits at *
  rw [builder, records, buffer]
  exact h

theorem LeavesWork.builderRule {s t : State} (h : LeavesWork s t) (rule : BuilderRule s) : BuilderRule t := by
  obtain ⟨builder, records, buffer, -, -⟩ := h
  exact rule.congr builder records buffer

theorem drainTest_builderRule {s : State} (h : BuilderRule s) : BuilderRule (drainTest s) := by
  obtain ⟨builder, records, buffer⟩ := drainTest_work s
  exact h.congr builder records buffer

/-- The entry that completes is counted as emitted or suppressed, and the position moves on. -/
theorem takeResult_buildSound (b : Build) (res : EntryResult) (s : State) (h : b.emitted + b.suppressed = b.position) :
    BuildSound (takeResult b res s) := by
  unfold takeResult
  cases res.words with
  | none => exact buildSound_of_building rfl (by simp only; omega)
  | some ws => exact buildSound_of_building rfl (by simp only; omega)

theorem recordStart_builderRule {s : State} (h : BuilderRule s) : BuilderRule (recordStart s) := by
  unfold recordStart
  split
  · exact settleBuilder_settled s h.sound
  all_goals exact h

theorem fragmentAppend_builderRule {s : State} (h : BuilderRule s) : BuilderRule (fragmentAppend s) := by
  unfold fragmentAppend
  split
  · split
    · exact settleBuilder_settled s h.sound
    · exact h
  all_goals exact h

theorem completeEntry_builderRule {s : State} (h : BuilderRule s) : BuilderRule (completeEntry s) := by
  unfold completeEntry
  split
  · next b _ building =>
    split
    · refine settleBuilder_settled _ (takeResult_buildSound b _ _ ?_)
      have counted := h.2
      rwa [BuildCounted, building] at counted
    · exact h
  all_goals exact h

theorem stopRun_builderRule {s : State} (h : BuilderRule s) : BuilderRule (stopRun s) := by
  rcases stopRun_cases s with ⟨e, -⟩ | ⟨-, -, e⟩ | ⟨-, e⟩ <;> rw [e]
  · exact h
  · exact drainTest_builderRule (s := setAcq .draining s) h
  · exact drainTest_builderRule ((throttleRelax_leavesWork _).builderRule (s := setAcq .draining s) h)

theorem acceptArrival_builderRule (e : EventNum) {s : State} (h : BuilderRule s) : BuilderRule (acceptArrival e s) := by
  rcases acceptArrival_cases e s with leaves | ⟨u, accept, builder, -, -⟩
  · exact leaves.builderRule h
  · rw [accept]; exact settleBuilder_settled u (h.sound.congr builder)

/-- rset leaves no record and an IDLE builder, in STANDBY (R49 to R51). -/
theorem reset_work (s : State) :
    (enterStandby (resetReadout (resetQueue s))).aq.records = [] ∧
      (enterStandby (resetReadout (resetQueue s))).builder = { state := .idle, inFlight := none } := by
  refine ⟨(enterStandby_records _).trans ?_, enterStandby_builder _⟩
  obtain ⟨wf, e⟩ := resetPiece_eq s
  exact congrArg (fun t => t.aq.records) e

theorem builderRule_of_empty {s : State} (records : s.aq.records = [])
    (idle : s.builder = { state := .idle, inFlight := none }) : BuilderRule s := by
  simp [BuilderRule, BuilderSettled, BuildCounted, idle, records]

theorem kept_builderRule : Kept BuilderRule where
  ctl _ _ h := h
  change s t c h := by
    cases c with
    | quiet q => exact q.leavesWork.builderRule h
    | recordStart => exact recordStart_builderRule h
    | fragmentAppend => exact fragmentAppend_builderRule h
    | completeEntry => exact completeEntry_builderRule h
    | drainTest => exact drainTest_builderRule h
    | stopRun => exact stopRun_builderRule h
    | accept e => exact acceptArrival_builderRule e h
    | reset => exact builderRule_of_empty (reset_work s).1 (reset_work s).2
  block s h := by
    unfold completeBlock
    split
    · exact h
    · exact drainTest_builderRule (settleBuilder_settled _ (h.sound.congr rfl))
  power _ _ := builderRule_of_empty rfl rfl

/-- Settles O9: the builder's fuel lasts until it has nothing to do of itself; and what completes an rset or frees the port
is followed by the port's own going-on. -/
theorem stepKeepsBuilderSettled : Obligations.StepKeepsBuilderSettled :=
  ⟨fun _ _ h st => kept_builderRule.step (fun _ _ h => h) h st,
    fun _ _ h st => portKept_portSettled.step (fun _ _ h => h) h st⟩

/-! ## STANDBY and DRAINING -/

/-- STANDBY is empty, and DRAINING owes something (R48). -/
def EndsRule (s : State) : Prop := StandbyEmpty s ∧ DrainTested s

theorem endsRule_of_ne {s : State} (standby : s.acq.state ≠ .standby) (draining : s.acq.state ≠ .draining) : EndsRule s :=
  ⟨fun e => absurd e standby, fun e => absurd e draining⟩

theorem LeavesWork.standbyEmpty {s t : State} (h : LeavesWork s t) (empty : StandbyEmpty s) : StandbyEmpty t := by
  obtain ⟨builder, records, -, standby, -⟩ := h
  intro e
  rw [builder, records]
  exact empty (standby e)

theorem LeavesWork.endsRule {s t : State} (h : LeavesWork s t) (rule : EndsRule s) : EndsRule t := by
  refine ⟨h.standbyEmpty rule.1, ?_⟩
  obtain ⟨builder, records, buffer, -, draining⟩ := h
  intro e
  unfold drained
  rw [builder, records, buffer]
  exact rule.2 (draining e)

theorem drained_iff (s : State) :
    drained s = true ↔ s.aq.records = [] ∧ s.builder.state = .idle ∧ s.tx.buffer = [] := by
  simp [drained, and_assoc]

/-- The test for the end of draining leaves DRAINING only where something is owed. -/
theorem drainTest_endsRule {s : State} (h : StandbyEmpty s) : EndsRule (drainTest s) := by
  unfold drainTest
  split
  · next ends =>
    obtain ⟨records, idle, -⟩ := (drained_iff s).1 ends.2
    refine ⟨fun _ => ⟨(enterStandby_records s).trans records, ?_⟩, fun e => ?_⟩
    · rw [enterStandby_builder]; exact idle
    · rw [enterStandby_state] at e; exact absurd e (by simp)
  · next goesOn => exact ⟨h, fun e => by simpa using fun d => goesOn ⟨e, d⟩⟩

theorem startRecord_endsRule {s : State} {r : Record} {rest : List Record} (h : StandbyEmpty s)
    (first : s.aq.records = r :: rest) : EndsRule (startRecord r s) := by
  obtain ⟨queue, acq, -⟩ := startRecord_build r s
  refine ⟨fun e => ?_, fun _ => ?_⟩
  · rw [acq] at e
    exact absurd ((h e).1.symm.trans first) (by simp)
  · simp [drained, queue, first]

theorem ready_endsRule {s : State} {b : Build} (h : StandbyEmpty s) (building : s.builder.state = .building b) :
    EndsRule (s.mapBuilder fun _ => { state := .ready b, inFlight := none }) :=
  ⟨fun e => absurd ((h e).2.symm.trans building) (by simp), fun _ => by simp [drained]⟩

theorem appendFragment_endsRule {s : State} {b : Build} (h : StandbyEmpty s) (ready : s.builder.state = .ready b) :
    EndsRule (appendFragment b s) := by
  obtain ⟨u, e, -, -, state⟩ := appendFragment_eq b s
  rw [e]
  refine drainTest_endsRule fun standby => ?_
  exact absurd ((h (state.symm.trans standby)).2.symm.trans ready) (by simp)

theorem settleBuilder_standbyEmpty (s : State) (h : StandbyEmpty s) : StandbyEmpty (settleBuilder s) :=
  settleBuilder_keeps StandbyEmpty (fun _ _ _ h _ first => (startRecord_endsRule h first).1)
    (fun _ _ h building _ => (ready_endsRule h building).1) (fun _ _ h ready _ => (appendFragment_endsRule h ready).1) s h

theorem settleBuilder_endsRule (s : State) (h : EndsRule s) : EndsRule (settleBuilder s) :=
  settleBuilder_keeps EndsRule (fun _ _ _ h _ first => startRecord_endsRule h.1 first)
    (fun _ _ h building _ => ready_endsRule h.1 building) (fun _ _ h ready _ => appendFragment_endsRule h.1 ready) s h

theorem entryOccurrences_leavesWork (ev : EventNum) (res : EntryResult) (s : State) :
    LeavesWork s (entryOccurrences ev res s) := by
  unfold entryOccurrences
  refine .trans (t := if _ then _ else _) ?_ (occurIf_leavesWork _ _ _ _)
  split
  · exact tally_leavesWork _ s
  · exact .refl s

theorem takeResult_endsRule {s : State} {b c : Build} (res : EntryResult) (h : StandbyEmpty s)
    (building : s.builder.state = .building c) : EndsRule (takeResult b res s) :=
  ⟨fun e => absurd ((h e).2.symm.trans building) (by simp), fun _ => by simp [drained, takeResult]⟩

theorem completeEntry_endsRule {s : State} (h : EndsRule s) : EndsRule (completeEntry s) := by
  unfold completeEntry
  split
  · next f b _ building =>
    split
    · next res _ =>
      have leaves := entryOccurrences_leavesWork f.event res s
      exact settleBuilder_endsRule _ (takeResult_endsRule res (leaves.standbyEmpty h.1) (leaves.1 ▸ building))
    · exact h
  all_goals exact h

theorem recordStart_endsRule {s : State} (h : EndsRule s) : EndsRule (recordStart s) := by
  unfold recordStart
  split
  · exact settleBuilder_endsRule s h
  all_goals exact h

theorem fragmentAppend_endsRule {s : State} (h : EndsRule s) : EndsRule (fragmentAppend s) := by
  unfold fragmentAppend
  split
  · split
    · exact settleBuilder_endsRule s h
    · exact h
  all_goals exact h

theorem stopRun_endsRule {s : State} (h : EndsRule s) : EndsRule (stopRun s) := by
  have entered : StandbyEmpty (setAcq .draining s) := fun e => absurd e (by simp [setAcq])
  rcases stopRun_cases s with ⟨e, -⟩ | ⟨-, -, e⟩ | ⟨-, e⟩ <;> rw [e]
  · exact h
  · exact drainTest_endsRule entered
  · exact drainTest_endsRule ((throttleRelax_leavesWork _).standbyEmpty entered)

theorem acceptArrival_endsRule (e : EventNum) {s : State} (h : EndsRule s) : EndsRule (acceptArrival e s) := by
  rcases acceptArrival_cases e s with leaves | ⟨u, accept, -, standby, draining⟩
  · exact leaves.endsRule h
  · rw [accept]; exact settleBuilder_endsRule u (endsRule_of_ne standby draining)

theorem reset_endsRule (s : State) : EndsRule (enterStandby (resetReadout (resetQueue s))) := by
  obtain ⟨records, builder⟩ := reset_work s
  refine ⟨fun _ => ⟨records, by rw [builder]⟩, fun e => ?_⟩
  rw [enterStandby_state] at e
  exact absurd e (by simp)

theorem kept_endsRule : Kept EndsRule where
  ctl _ _ h := h
  change s t c h := by
    cases c with
    | quiet q => exact q.leavesWork.endsRule h
    | recordStart => exact recordStart_endsRule h
    | fragmentAppend => exact fragmentAppend_endsRule h
    | completeEntry => exact completeEntry_endsRule h
    | drainTest => exact drainTest_endsRule h.1
    | stopRun => exact stopRun_endsRule h
    | accept e => exact acceptArrival_endsRule e h
    | reset => exact reset_endsRule s
  block s h := by
    unfold completeBlock
    split
    · exact h
    · exact drainTest_endsRule (settleBuilder_standbyEmpty _ h.1)
  power _ _ := ⟨fun _ => ⟨rfl, rfl⟩, fun e => absurd e (by simp [powerOn, State.reset])⟩

/-- Settles O10: whatever empties DRAINING is followed by the test for its end, and no record is made in STANDBY. -/
theorem stepKeepsStandbyAndDraining : Obligations.StepKeepsStandbyAndDraining :=
  fun _ _ h st => kept_endsRule.step (fun _ _ h => h) h st

end Sys2Proof.Machine
end


section
/-!
The commands as the Control Port takes them: the queue's front, power-on, frames held and executed, and the refusals by name.
-/

namespace Sys2Proof.Machine

/-! ## Masks of conditions -/

/-- The bits set one by one are the bits of the number. -/
theorem foldl_bits {n : Nat} (f : Fin n → Bool) :
    (List.finRange n).foldl (fun m i => if f i then m + 2 ^ i.val else m) 0 < 2 ^ n ∧
      ∀ i : Fin n, ((List.finRange n).foldl (fun m i => if f i then m + 2 ^ i.val else m) 0).testBit i.val = f i := by
  induction n with
  | zero => exact ⟨by simp, fun i => i.elim0⟩
  | succ n ih =>
    obtain ⟨below, bits⟩ := ih fun i => f i.castSucc
    rw [List.finRange_succ_last, List.foldl_append, List.foldl_map]
    simp only [List.foldl_cons, List.foldl_nil, Fin.val_last, Fin.val_castSucc] at below bits ⊢
    generalize (List.finRange n).foldl (fun m i => if f i.castSucc = true then m + 2 ^ i.val else m) 0 = v at below bits ⊢
    have top : v.testBit n = false := Nat.testBit_lt_two_pow below
    refine ⟨by split <;> omega, fun i => ?_⟩
    refine Fin.lastCases ?_ (fun j => ?_) i
    · split
      · next set => rw [Fin.val_last, Nat.add_comm, Nat.testBit_two_pow_add_eq, top, set]; rfl
      · next clear => rw [Fin.val_last, top]; simpa using clear
    · split
      · rw [Nat.add_comm, Fin.val_castSucc, Nat.testBit_two_pow_add_gt j.isLt, bits]
      · exact bits j

/-- Bit n of the mask of latched conditions is the latch of condition n (R186). -/
theorem latched_bits (t : CondTable) : t.latched < 2 ^ 25 ∧ ∀ i : Fin 25, t.latched.testBit i.val = t.recs[i].latch :=
  foldl_bits fun i => t.recs[i].latch

/-- The reply of cclr shows the conditions latched, bit by bit (R186, R187). -/
theorem cclrReply_mask (tag : Byte) (s : State) :
    ∃ left : BitVec 32, cclrReply tag s = answer tag .ok (u32 left.toNat) s ∧ left.toNat < 2 ^ 25 ∧
      ∀ i : Fin 25, left.getLsbD i.val = s.cond.recs[i].latch := by
  obtain ⟨below, bits⟩ := latched_bits s.cond
  have whole : (BitVec.ofNat 32 s.cond.latched).toNat = s.cond.latched := by
    rw [BitVec.toNat_ofNat]
    exact Nat.mod_eq_of_lt (by omega)
  refine ⟨BitVec.ofNat 32 s.cond.latched, by rw [whole]; rfl, by rw [whole]; exact below, fun i => ?_⟩
  rw [BitVec.getLsbD, whole, bits]

theorem ofBool_bits (a b c d : Bool) :
    ∀ k : Fin 4, (BitVec.ofBool a ++ BitVec.ofBool b ++ BitVec.ofBool c ++ BitVec.ofBool d).getLsbD k.val = #v[d, c, b, a][k] := by
  revert a b c d
  decide

/-- Bit k of the class summary is the raised mark of class k (R199). -/
theorem summary_bit (t : CondTable) (k : Fin 4) :
    t.summary.getLsbD k.val = t.raised #v[CondClass.class0, .class1, .class2, .class3][k] := by
  rw [CondTable.summary, ofBool_bits]
  fin_cases k <;> rfl

/-! ## The port before an event and with a request -/

/-- A frame executed at the port is the request arriving at an idle port, with the others held meanwhile (R194). -/
theorem executeOldest_eq {f : Frame} {rest : List Frame} {s u : State}
    (h : exec (commandOf f) { s with ctl := { s.ctl with executing := .none, buffer := [] } } = .next u) :
    executeOldest f rest s = { u with ctl := { u.ctl with buffer := rest } } := by
  rw [exec_commandOf f (s := { s with ctl := { s.ctl with executing := .none, buffer := [] } }) ⟨rfl, rfl⟩] at h
  obtain rfl := Host.Outcome.next.inj h
  rfl

/-- Before an event the port executes what it holds as long as it is free (R194). -/
theorem beforeEvent_served (s : State) : (beforeEvent s).ctl.executing = .none → (beforeEvent s).ctl.buffer = [] := by
  cases due : rsetDue s with
  | false => exact (portWork_portSettled _ s rfl due).2
  | true =>
    have quiet : PortQuiet s := by
      unfold rsetDue at due
      unfold PortQuiet
      split at due <;> simp_all
    rw [beforeEvent_quiet quiet]
    intro free
    simp [rsetDue, free] at due

theorem takeFound_free {f : Frame} {s : State} (free : (beforeEvent s).ctl.executing = .none) :
    takeFound s (.complete f) = runRequest (commandOf f) (beforeEvent s) := by
  simp [takeFound, duringEvent, portFree, free]

theorem takeFound_busy {f : Frame} {s : State} (busy : (beforeEvent s).ctl.executing ≠ .none) :
    takeFound s (.complete f) = receiveFrame f (beforeEvent s) := by
  simp [takeFound, duringEvent, portFree, busy]

/-- Settles O13: the port's work before an event, case by case of what holds it. -/
theorem heldRequestsWaitAndExecute : Obligations.HeldRequestsWaitAndExecute := by
  unfold Obligations.HeldRequestsWaitAndExecute
  intro s0
  refine ⟨beforeEvent_quiet, fun n h => beforeEvent_sending h, beforeEvent_sent, ?_, fun tag n h => beforeEvent_cclr h, ?_,
    beforeEvent_served s0, fun f => ⟨fun free => ?_, fun busy => ?_⟩⟩
  · intro f rest u sent held h
    rw [beforeEvent_held sent held, executeOldest_eq h]
  · intro tag h
    obtain ⟨left, reply, below, bits⟩ := cclrReply_mask tag s0
    exact ⟨left, by rw [beforeEvent_cclr_formed h, reply], below, bits⟩
  · have quiet : PortIdle (beforeEvent s0) := ⟨free, beforeEvent_served s0 free⟩
    rw [exec_commandOf_eq, takeFound_free free, exec_commandOf f quiet]
  · rw [exec_commandOf_eq, takeFound_busy busy, receiveFrame_eq]

/-! ## Refusals by name and replies -/

/-- Each command of the part is served, taken in manual trim mode where its name is of that mode (R93). -/
theorem commandNames_serve : ∀ e ∈ commandNames, ∀ r : Request, ∃ body : Request → State → State, ∀ s,
    exec (e.2 r) s = .next (serve e.1 (decide (e.1 ∈ manualNames)) r body s) := by
  simp only [commandNames, List.forall_mem_cons, List.not_mem_nil, false_imp_iff, implies_true, and_true]
  and_intros
  all_goals exact fun _ => ⟨_, fun _ => rfl⟩

/-- Settles O14: the port's refusals, and the bytes of a reply with the class summary bit by bit. -/
theorem refusedByName : Obligations.RefusedByName := by
  unfold Obligations.RefusedByName
  refine ⟨fun f s idle manual known other => ?_, fun name r s idle unknown => ?_, fun tag st p s => ⟨_, answer_eq tag st p s⟩,
    fun tag st summary p => ?_, fun t k => ?_⟩
  · obtain ⟨e, mem, name, h⟩ := commandOf_known f known
    obtain ⟨body, served⟩ := commandNames_serve e mem { tag := f.tag, payload := f.payload }
    rw [h, served, name, decide_eq_false other, serve_manual _ _ _ idle manual]
  · simp [exec, execUnknownCommand, unknown, serve_always _ _ _ idle, unknownBody, refuse]
  · cases st <;> rfl
  · rw [summary_bit]
    simp only [CondTable.raised, List.any_eq_true, List.mem_finRange, true_and, Bool.and_eq_true, decide_eq_true_eq]

/-! ## The queue of commands -/

theorem step_pending (c : Instr) (s : State) : step { s with pending := c :: s.pending } = exec c s := rfl

theorem step_idle {s : State} (h : s.pending = []) : step s = .next (idleTime s) := by
  unfold step
  rw [h]

/-- A quiet port has nothing to get on with. -/
theorem idleTime_quiet {s : State} (h : PortQuiet s) : idleTime s = s := by
  unfold PortQuiet at h
  unfold idleTime
  split at h <;> simp_all

theorem idleTime_cclr {s : State} {tag : Byte} {n : Nat} (h : s.ctl.executing = .cclr tag n) :
    idleTime s = cclrReply tag s := by
  unfold idleTime
  rw [h]

theorem idleTime_sent {s : State} {n : Nat} (h : s.ctl.executing = .sending n) (hb : s.ctl.buffer = []) :
    idleTime s = setExecuting .none s := by
  unfold idleTime
  rw [h, hb]

theorem idleTime_held {s : State} {n : Nat} {f : Frame} {rest : List Frame} (h : s.ctl.executing = .sending n)
    (hb : s.ctl.buffer = f :: rest) : idleTime s = executeOldest f rest s := by
  unfold idleTime
  rw [h, hb]

/-- Settles O1: with no command waiting the port gets on by itself. -/
theorem stepTakesFrontCommand : Obligations.StepTakesFrontCommand := by
  unfold Obligations.StepTakesFrontCommand
  refine ⟨step_pending, fun s empty => ⟨fun quiet => ?_, fun tag n h => ?_, fun n h hb => ?_, fun n f rest u h hb run => ?_⟩⟩
  · rw [step_idle empty, idleTime_quiet quiet]
  · obtain ⟨left, reply, below, bits⟩ := cclrReply_mask tag s
    exact ⟨left, by rw [step_idle empty, idleTime_cclr h, reply], below, bits⟩
  · rw [step_idle empty, idleTime_sent h hb]
    rfl
  · rw [step_idle empty, idleTime_held h hb, executeOldest_eq run]

/-! ## Power-on -/

/-- The classes of the conditions at power-on (section 10.2). -/
theorem reset_class (i : Fin 25) : State.reset.cond.recs[i].cls =
    if i ∈ ([0, 3, 4, 10, 12] : List (Fin 25)) then .class2
    else if i ∈ ([5, 6, 7, 8, 9, 11, 18, 21, 23] : List (Fin 25)) then .class1
    else .class0 := by
  revert i
  decide

/-- Settles O12: power-on is the state of reset, with the model's own fields kept. -/
theorem powerOnSetsEveryBlock : Obligations.PowerOnSetsEveryBlock := by
  unfold Obligations.PowerOnSetsEveryBlock
  intro s
  refine ⟨powerOn s, rfl, rfl, rfl, rfl, rfl, fun c => ?_, ⟨rfl, rfl, rfl, rfl⟩, rfl, fun k => ?_, rfl, rfl, rfl, rfl,
    ⟨rfl, rfl, rfl, rfl, rfl⟩, fun i => ⟨?_, ?_, ?_, reset_class i⟩, rfl, rfl, rfl, rfl⟩
  · simp [powerOn, State.reset, ChanRec.default, ChanPipe.default, ChanTrack.default, GainTrack.default,
      TrimInfo.default, Reading.default, ChanTrack.settings]
  all_goals simp [powerOn, State.reset]

end Sys2Proof.Machine
end


section
/-!
The receiver (R191 to R193): what it finds in a frame sent whole, in a bad one, and in bytes that come in parts.
-/

namespace Sys2Proof.Machine

/-! ## Looking at the bytes after a start byte -/

theorem takeBytes_cons (len : Byte) (t : List Byte) :
    takeBytes (len :: t) =
      if len.toNat < 5 ∨ 245 < len.toNat then .bad
      else if t.length < len.toNat + 2 then .partly
      else if (t.drop len.toNat).take 2 = crcBytes (len :: t.take len.toNat) then
        match frameOf (len :: t.take len.toNat) with
        | some f => .good f (t.drop (len.toNat + 2))
        | none => .bad
      else .bad := rfl

theorem takeBytes_badLength {len : Byte} (h : len.toNat < 5 ∨ 245 < len.toNat) (t : List Byte) :
    takeBytes (len :: t) = .bad := by
  rw [takeBytes_cons, if_pos h]

/-- What a start byte has found is found too with more bytes behind. -/
theorem takeBytes_append (t ys : List Byte) :
    takeBytes t = .partly ∨ (takeBytes t = .bad ∧ takeBytes (t ++ ys) = .bad) ∨
      ∃ f rest, takeBytes t = .good f rest ∧ takeBytes (t ++ ys) = .good f (rest ++ ys) ∧ rest.length < t.length := by
  cases t with
  | nil => exact .inl rfl
  | cons len t =>
    by_cases bad : len.toNat < 5 ∨ 245 < len.toNat
    · exact .inr (.inl ⟨takeBytes_badLength bad t, takeBytes_badLength bad (t ++ ys)⟩)
    · by_cases short : t.length < len.toNat + 2
      · exact .inl (by rw [takeBytes_cons, if_neg bad, if_pos short])
      · right
        have body : (t ++ ys).take len.toNat = t.take len.toNat := List.take_append_of_le_length (by omega)
        have check : ((t ++ ys).drop len.toNat).take 2 = (t.drop len.toNat).take 2 := by
          rw [List.drop_append_of_le_length (by omega), List.take_append_of_le_length (by rw [List.length_drop]; omega)]
        have rest : (t ++ ys).drop (len.toNat + 2) = t.drop (len.toNat + 2) ++ ys :=
          List.drop_append_of_le_length (by omega)
        have longer : ¬ (t ++ ys).length < len.toNat + 2 := by rw [List.length_append]; omega
        rw [List.cons_append, takeBytes_cons, takeBytes_cons, if_neg bad, if_neg bad, if_neg short, if_neg longer, body, check,
          rest]
        split
        · cases frameOf (len :: t.take len.toNat) with
          | none => exact .inl ⟨rfl, rfl⟩
          | some f => exact .inr ⟨f, _, rfl, rfl, by simp⟩
        · exact .inl ⟨rfl, rfl⟩

/-! ## Hunting -/

theorem hunt_other {b : Byte} (h : b ≠ 0x5B#8) (k : Nat) (t : List Byte) : hunt (k + 1) (b :: t) = hunt k t := by
  rw [hunt, if_neg h]

theorem hunt_partly {t : List Byte} (h : takeBytes t = .partly) (k : Nat) : hunt (k + 1) (0x5B#8 :: t) = ([], some t) := by
  rw [hunt, if_pos rfl, h]

theorem hunt_bad {t : List Byte} (h : takeBytes t = .bad) (k : Nat) :
    hunt (k + 1) (0x5B#8 :: t) = (.discarded :: (hunt k t).1, (hunt k t).2) := by
  rw [hunt, if_pos rfl, h]

theorem hunt_good {t rest : List Byte} {f : Frame} (h : takeBytes t = .good f rest) (k : Nat) :
    hunt (k + 1) (0x5B#8 :: t) = (.complete f :: (hunt k rest).1, (hunt k rest).2) := by
  rw [hunt, if_pos rfl, h]

/-- Bytes without a start byte are discarded without trace. -/
theorem hunt_noStart (k : Nat) (t : List Byte) (h : 0x5B#8 ∉ t) : hunt k t = ([], none) := by
  induction t generalizing k with
  | nil => cases k <;> rfl
  | cons b t ih =>
    cases k with
    | zero => rfl
    | succ k =>
      rw [hunt_other fun e => h (e ▸ List.mem_cons_self)]
      exact ih k fun mem => h (List.mem_cons_of_mem _ mem)

/-- As many rounds as there are bytes are enough. -/
theorem hunt_fuel (k j : Nat) (bs : List Byte) (hk : bs.length ≤ k) (hj : bs.length ≤ j) : hunt k bs = hunt j bs := by
  induction k generalizing j bs with
  | zero =>
    obtain rfl := List.length_eq_zero_iff.1 (Nat.le_zero.1 hk)
    cases j <;> rfl
  | succ k ih =>
    cases bs with
    | nil => cases j <;> rfl
    | cons b t =>
      obtain ⟨j, rfl⟩ : ∃ i, j = i + 1 := ⟨j - 1, by rw [List.length_cons] at hj; omega⟩
      replace hk : t.length ≤ k := Nat.le_of_succ_le_succ hk
      replace hj : t.length ≤ j := Nat.le_of_succ_le_succ hj
      by_cases start : b = 0x5B#8
      · subst start
        rcases takeBytes_append t [] with e | ⟨e, -⟩ | ⟨f, rest, e, -, shorter⟩
        · rw [hunt_partly e, hunt_partly e]
        · rw [hunt_bad e, hunt_bad e, ih j t hk hj]
        · rw [hunt_good e, hunt_good e, ih j rest (by omega) (by omega)]
      · rw [hunt_other start, hunt_other start, ih j t hk hj]

/-- What the receiver finds in a stream, and what it is left with. -/
def scan (bs : List Byte) : List Found × Option (List Byte) := hunt bs.length bs

theorem hunt_eq_scan {k : Nat} {bs : List Byte} (h : bs.length ≤ k) : hunt k bs = scan bs := hunt_fuel _ _ bs h le_rfl

theorem scan_other {b : Byte} (h : b ≠ 0x5B#8) (t : List Byte) : scan (b :: t) = scan t := hunt_other h _ t

theorem scan_partly {t : List Byte} (h : takeBytes t = .partly) : scan (0x5B#8 :: t) = ([], some t) := hunt_partly h _

theorem scan_bad {t : List Byte} (h : takeBytes t = .bad) :
    scan (0x5B#8 :: t) = (.discarded :: (scan t).1, (scan t).2) := hunt_bad h _

theorem scan_good {t rest : List Byte} {f : Frame} (h : takeBytes t = .good f rest) (shorter : rest.length ≤ t.length) :
    scan (0x5B#8 :: t) = (.complete f :: (scan rest).1, (scan rest).2) := by
  rw [← hunt_eq_scan shorter]
  exact hunt_good h _

theorem scan_noStart {t : List Byte} (h : 0x5B#8 ∉ t) : scan t = ([], none) := hunt_noStart _ t h

/-- Further bytes are taken from where the receiver was left (R192). -/
theorem scan_append (bs ys : List Byte) :
    scan (bs ++ ys) =
      ((scan bs).1 ++ (scan (stream (scan bs).2 ys)).1, (scan (stream (scan bs).2 ys)).2) := by
  induction hn : bs.length using Nat.strong_induction_on generalizing bs with
  | _ n ih =>
    cases bs with
    | nil => rfl
    | cons b t =>
      have fewer : t.length < n := by rw [← hn]; exact Nat.lt_succ_self _
      by_cases start : b = 0x5B#8
      · subst start
        rcases takeBytes_append t ys with e | ⟨e, e'⟩ | ⟨f, after, e, e', shorter⟩
        · rw [scan_partly e]
          rfl
        · rw [List.cons_append, scan_bad e, scan_bad e', ih _ fewer t rfl]
          rfl
        · rw [List.cons_append, scan_good e shorter.le, scan_good e' (by simp; omega), ih _ (shorter.trans fewer) after rfl]
          rfl
      · rw [List.cons_append, scan_other start, scan_other start, ih _ fewer t rfl]

/-! ## The receiver and the rest of the port -/

theorem beforeEvent_receiver (s : State) : (beforeEvent s).ctl.receiver = s.ctl.receiver :=
  beforeEvent_keeps (fun t => t.ctl.receiver = s.ctl.receiver) (fun _ _ h => h)
    (fun f _ u h => ((runRequest_answered f (setBuffer [] (setExecuting .none u))).port.2.1).trans h) (fun _ _ h => h) s rfl

theorem receiveFrame_receiver (f : Frame) (s : State) : (receiveFrame f s).ctl.receiver = s.ctl.receiver := by
  unfold receiveFrame
  split
  · rfl
  · exact (occur_portMoved _ _ s).2.1

/-- What is found is taken with the receiver as it is. -/
theorem takeFound_receiver (s : State) (f : Found) : (takeFound s f).ctl.receiver = s.ctl.receiver := by
  cases f with
  | discarded => exact (occur_portMoved _ _ _).2.1.trans (beforeEvent_receiver s)
  | complete g =>
    by_cases free : (beforeEvent s).ctl.executing = .none
    · rw [takeFound_free free, (runRequest_answered g _).port.2.1, beforeEvent_receiver]
    · rw [takeFound_busy free, receiveFrame_receiver, beforeEvent_receiver]

theorem foldl_takeFound_receiver (fs : List Found) (s : State) :
    (fs.foldl takeFound s).ctl.receiver = s.ctl.receiver := by
  induction fs generalizing s with
  | nil => rfl
  | cons f fs ih => exact (ih _).trans (takeFound_receiver s f)

theorem setReceiver_setReceiver (a b : Option (List Byte)) (s : State) :
    setReceiver a (setReceiver b s) = setReceiver a s := rfl

theorem setReceiver_same {s : State} {r : Option (List Byte)} (h : s.ctl.receiver = r) : setReceiver r s = s := by
  subst h
  rfl

theorem receiveBytes_eq (bs : List Byte) (s : State) :
    receiveBytes bs s =
      setReceiver (scan (stream s.ctl.receiver bs)).2
        ((scan (stream s.ctl.receiver bs)).1.foldl takeFound (setReceiver none s)) := rfl

theorem stream_append (r : Option (List Byte)) (xs ys : List Byte) : stream r (xs ++ ys) = stream r xs ++ ys := by
  cases r with
  | none => rfl
  | some taken => simp [stream]

/-- Bytes may come in parts (R192). -/
theorem receiveBytes_append (xs ys : List Byte) (s : State) :
    receiveBytes ys (receiveBytes xs s) = receiveBytes (xs ++ ys) s := by
  have left : (receiveBytes xs s).ctl.receiver = (scan (stream s.ctl.receiver xs)).2 := rfl
  rw [receiveBytes_eq ys, left, receiveBytes_eq (xs ++ ys), stream_append, scan_append, receiveBytes_eq xs,
    setReceiver_setReceiver,
    setReceiver_same (r := none) (foldl_takeFound_receiver _ (setReceiver none s)), List.foldl_append]

/-- In HUNT, bytes that hold one thing to find and leave the receiver in HUNT are that thing taken. -/
theorem receiveBytes_one {bs : List Byte} {f : Found} {s : State} (hunting : s.ctl.receiver = none)
    (found : scan bs = ([f], none)) : receiveBytes bs s = takeFound s f := by
  have whole : stream s.ctl.receiver bs = bs := by rw [hunting]; rfl
  rw [receiveBytes_eq, whole, found, setReceiver_same hunting]
  exact setReceiver_same ((takeFound_receiver s f).trans hunting)

/-! ## Request frames -/

/-- The bytes of a request frame from the length byte through the last payload byte. -/
def frameBody (f : Frame) : List Byte := u8 (5 + f.payload.length) ++ [f.tag] ++ u32 f.name.toNat ++ f.payload

theorem toNat_append_add {n m : Nat} (a : BitVec n) (b : BitVec m) : (a ++ b).toNat = a.toNat * 2 ^ m + b.toNat := by
  rw [BitVec.toNat_append, ← Nat.shiftLeft_add_eq_or_of_lt b.isLt, Nat.shiftLeft_eq]

theorem nameOf_bytes (name : BitVec 32) :
    nameOf (BitVec.ofNat 8 (name.toNat / 16777216)) (BitVec.ofNat 8 (name.toNat / 65536))
      (BitVec.ofNat 8 (name.toNat / 256)) (BitVec.ofNat 8 name.toNat) = name := by
  apply BitVec.eq_of_toNat_eq
  have := name.isLt
  simp only [nameOf, toNat_append_add, BitVec.toNat_ofNat]
  omega

theorem frameOf_frameBody (f : Frame) : frameOf (frameBody f) = some f := by
  show some { f with name := nameOf _ _ _ _ } = _
  rw [nameOf_bytes]

/-- The bytes after the start byte of a frame, with two bytes for its check. -/
theorem takeBytes_frame (f : Frame) (h l : Byte) (fits : f.payload.length ≤ 240) :
    takeBytes (frameBody f ++ [h, l]) = if [h, l] = crcBytes (frameBody f) then .good f [] else .bad := by
  have len : (BitVec.ofNat 8 (5 + f.payload.length)).toNat = 5 + f.payload.length := toNat_byte _ (by omega)
  have whole : ([f.tag] ++ u32 f.name.toNat ++ f.payload).length = 5 + f.payload.length := by simp [u32]; omega
  have body : frameBody f = BitVec.ofNat 8 (5 + f.payload.length) :: ([f.tag] ++ u32 f.name.toNat ++ f.payload) := rfl
  rw [body, List.cons_append, takeBytes_cons, len, if_neg (by omega), if_neg (by rw [List.length_append, whole]; simp),
    ← whole, List.drop_left, List.take_left, whole, ← body, frameOf_frameBody,
    List.drop_eq_nil_of_le (by rw [List.length_append, whole]; rfl)]
  rfl

theorem scan_request (f : Frame) (fits : f.payload.length ≤ 240) : scan (requestBytes f) = ([.complete f], none) := by
  have good : takeBytes (frameBody f ++ crcBytes (frameBody f)) = .good f [] := by
    have := takeBytes_frame f (BitVec.ofNat 8 ((crc16 (frameBody f)).toNat / 256))
      (BitVec.ofNat 8 (crc16 (frameBody f)).toNat) fits
    rwa [if_pos (by rfl)] at this
  exact scan_good good (Nat.zero_le _)

theorem scan_badLength {b : Byte} (bad : b.toNat < 5 ∨ 245 < b.toNat) : scan [0x5B#8, b] = ([.discarded], none) := by
  have other : b ≠ 0x5B#8 := by rintro rfl; simp at bad
  rw [scan_bad (takeBytes_badLength bad []), scan_other other]
  rfl

theorem scan_badCheck {f : Frame} {h l : Byte} (fits : f.payload.length ≤ 240) (wrong : [h, l] ≠ crcBytes (frameBody f))
    (noStart : 0x5B#8 ∉ frameBody f ++ [h, l]) : scan (0x5B#8 :: (frameBody f ++ [h, l])) = ([.discarded], none) := by
  rw [scan_bad (by rw [takeBytes_frame f h l fits, if_neg wrong]), scan_noStart noStart]

/-! ## The inter-byte timeout -/

theorem interByteTimeout_collecting {s : State} {bs : List Byte} (h : s.ctl.receiver = some bs) :
    interByteTimeout s = occur .ctlTimeout none (setReceiver none s) := by
  unfold interByteTimeout
  rw [h]
  rfl

/-- An occurrence leaves the port. -/
theorem occur_ctl (c : Cond) (ev : Option EventNum) (s : State) : (occur c ev s).ctl = s.ctl := by
  obtain ⟨cond, st, th, wf, e⟩ := occur_only c ev s
  rw [e]

/-- Settles O15: the receiver finds a frame sent whole, and a stream's parts add up. -/
theorem receiverTakesFrames : Obligations.ReceiverTakesFrames := by
  unfold Obligations.ReceiverTakesFrames
  refine ⟨fun f s0 fits hunting => ⟨?_, fun busy => ?_⟩, fun b s0 hunting bad => ?_,
    fun f h l s0 fits hunting wrong noStart => ?_, fun xs ys s t first => ?_, fun bs s0 collecting => ⟨?_, _, rfl, ?_⟩⟩
  · rw [exec_commandOf_eq, ← receiveBytes_one hunting (scan_request f fits)]
    rfl
  · rw [← receiveFrame_eq, ← takeFound_busy busy, ← receiveBytes_one hunting (scan_request f fits)]
    rfl
  · exact congrArg _ (receiveBytes_one hunting (scan_badLength bad))
  · exact congrArg _ (receiveBytes_one hunting (scan_badCheck fits wrong noStart))
  · obtain rfl := Host.Outcome.next.inj first
    exact congrArg _ (receiveBytes_append xs ys s)
  · exact congrArg _ (interByteTimeout_collecting collecting)
  · have timedOut := interByteTimeout_collecting collecting
    have record := occur_rec .ctlTimeout none (setReceiver none (beforeEvent s0))
    simp only [duringEvent, timedOut]
    refine ⟨by rw [occur_ctl]; rfl, ?_, ?_⟩
    · exact (congrArg CondRec.latch record).trans rfl
    · exact (congrArg CondRec.count record).trans rfl

end Sys2Proof.Machine
end


section
/-!
Chapters 1 and 2: what the bodies of chan, pipe, turn, clks, frze, thaw and peek answer, and from them the statements about
these commands.
-/

namespace Sys2Proof.Machine

/-- At a port that takes requests a served command is its body. -/
theorem exec_takes {c : Instr} {name : BitVec 32} {b : Bool} {r : Request} {body : Request → State → State} {s : State}
    (takes : TakesRequests s) (served : exec c s = .next (serve name b r body s)) : exec c s = .next (body r s) := by
  rw [served, serve_takes name r body b takes]

/-- At an idle port a served command that manual trim mode takes is its body. -/
theorem exec_always {c : Instr} {name : BitVec 32} {r : Request} {body : Request → State → State} {s : State}
    (idle : PortIdle s) (served : exec c s = .next (serve name true r body s)) : exec c s = .next (body r s) := by
  rw [served, serve_always name r body idle]

theorem inStandby_true {s : State} (h : s.acq.state = .standby) : inStandby s = true := inStandby_iff s |>.2 h

theorem inStandby_false {s : State} (h : s.acq.state ≠ .standby) : inStandby s = false := by simp [inStandby, h]

section

variable {tag : Byte} {s : State}

/-! ## chan (R4) -/

theorem chanBody_read (c : Chan) :
    chanBody { tag := tag, payload := [BitVec.ofNat 8 c.val] } s = answer tag .ok (chanRecBytes c s.front.recs[c]) s := by
  simp only [chanBody, readChan_byte, answerOk]

/-- A chan write in a payload as it is sent. -/
theorem chanBody_write (c : Chan) {rec : ChanRec} (legal : rec.Legal) :
    chanBody { tag := tag, payload := chanRecBytes c rec } s =
      if !inStandby s then answer tag .badState [] s
      else if inLong s then answer tag .busy [] s
      else answer tag .ok (chanRecBytes c rec) (s.mapFront fun f => { f with recs := put f.recs c rec }) := by
  have payload : chanRecBytes c rec = [BitVec.ofNat 8 c.val, BitVec.ofNat 8 (flagCode rec.enable),
      BitVec.ofNat 8 (rec.hgThreshold / 256), BitVec.ofNat 8 rec.hgThreshold, BitVec.ofNat 8 (rec.lgThreshold / 256),
      BitVec.ofNat 8 rec.lgThreshold, BitVec.ofNat 8 (rec.gainRatio / 256), BitVec.ofNat 8 rec.gainRatio,
      BitVec.ofNat 8 rec.hgSet.val, BitVec.ofNat 8 rec.lgSet.val] := rfl
  rw [payload, chanBody]
  simp only [readChan_byte, readChanRec_bytes rec legal, refuse, answerOk, payload]

/-! ## pipe and turn (R15, R31) -/

theorem appliedLatency_eq (l n sPer : Nat) (h : n ≤ 480) :
    appliedLatency l n sPer =
      if sPer = 2 ∧ max n (min l 480) % 2 = 1 then max n (min l 480) + 1 else max n (min l 480) := by
  have clamped : (if l < n then n else if 480 < l then 480 else l) = max n (min l 480) := by
    split
    · omega
    · split <;> omega
  rw [appliedLatency, clamped]

theorem pipeBody_write {l n : Nat} (standby : s.acq.state = .standby) (hl : l < 65536) (hn : n < 256) :
    pipeBody { tag := tag, payload := u16 l ++ u8 n } s =
      match inRange 3 16 n with
      | none => answer tag .badArg [] s
      | some n =>
        answer tag (if appliedLatency l n s.clk.s = l then .ok else .clamped) (u16 (appliedLatency l n s.clk.s) ++ u8 n)
          (s.mapPipe fun p => { p with latency := appliedLatency l n s.clk.s, window := n }) := by
  simp only [pipeBody, u16, u8, List.cons_append, List.nil_append, inStandby_true standby, Bool.not_true,
    be16_bytes _ hl, toNat_byte n (by omega), refuse]
  rfl

theorem readTurn_bytes {n qf qt : Nat} (hn : n < 65536) (hf : qf < 65536) (ht : qt < 65536) :
    readTurn (BitVec.ofNat 8 (n / 256)) (BitVec.ofNat 8 n) (BitVec.ofNat 8 (qf / 256)) (BitVec.ofNat 8 qf)
        (BitVec.ofNat 8 (qt / 256)) (BitVec.ofNat 8 qt) =
      if 64 ≤ n ∧ n ≤ 4095 ∧ qf < n ∧ qt < n then some (n, qf, qt) else none := by
  simp only [readTurn, be16_bytes _ hn, be16_bytes _ hf, be16_bytes _ ht]
  by_cases len : 64 ≤ n ∧ n ≤ 4095
  · simp only [inRange_eq len.1 len.2, Option.bind_eq_bind, Option.bind_some]
    by_cases start : qf < n
    · rw [inRange_eq (Nat.zero_le qf) (by omega), Option.bind_some]
      by_cases upto : qt < n
      · rw [inRange_eq (Nat.zero_le qt) (by omega), if_pos ⟨len.1, len.2, start, upto⟩]
        rfl
      · rw [inRange_none (by omega : qt < 0 ∨ n - 1 < qt), if_neg (by omega)]
        rfl
    · rw [inRange_none (by omega : qf < 0 ∨ n - 1 < qf), if_neg (by omega)]
      rfl
  · rw [inRange_none (by omega), if_neg (by omega)]
    rfl

theorem turnBody_write {n qf qt : Nat} (hn : n < 65536) (hf : qf < 65536) (ht : qt < 65536) :
    turnBody { tag := tag, payload := u16 n ++ u16 qf ++ u16 qt } s =
      if s.acq.state = .standby then
        if 64 ≤ n ∧ n ≤ 4095 ∧ qf < n ∧ qt < n then
          answer tag .ok (u16 n ++ u16 qf ++ u16 qt)
            { s with timing := { s.timing with turnLength := n, quietFrom := qf, quietTo := qt, counter := 0, aligned := false } }
        else answer tag .badArg [] s
      else answer tag .badState [] s := by
  simp only [turnBody, u16, List.cons_append, List.nil_append, readTurn_bytes hn hf ht]
  by_cases standby : s.acq.state = .standby
  · rw [inStandby_true standby, if_pos standby]
    by_cases legal : 64 ≤ n ∧ n ≤ 4095 ∧ qf < n ∧ qt < n
    · rw [if_pos legal, if_pos legal]
      rfl
    · rw [if_neg legal, if_neg legal]
      rfl
  · rw [inStandby_false standby, if_neg standby]
    rfl

end

/-- Settles O41: a write passes the checks for STANDBY and for a long trim, a read passes none. -/
theorem chanWritesAndReadsRecord : Obligations.ChanWritesAndReadsRecord := by
  unfold Obligations.ChanWritesAndReadsRecord
  intro tag s c rec takes legal
  have write := (exec_takes (c := .chan { tag := tag, payload := chanRecBytes c rec }) takes rfl).trans
    (congrArg _ (chanBody_write c legal))
  refine ⟨fun standby short => ?_, ?_, fun ne => ?_, fun standby long => ?_⟩
  · rw [write, inStandby_true standby, short]
    rfl
  · rw [exec_takes (body := chanBody) takes rfl, chanBody_read]
  · rw [write, inStandby_false ne]
    rfl
  · rw [write, inStandby_true standby, long]
    rfl

/-- Settles O42: the clamp of pipe is a maximum of a minimum, and turn's reader checks both bounds against the turn length. -/
theorem pipeAndTurnWrites : Obligations.PipeAndTurnWrites := by
  unfold Obligations.PipeAndTurnWrites
  refine ⟨fun tag s l n takes standby hl hn => ⟨fun low high => ?_, fun out => ?_⟩,
    fun tag s n qf qt takes hn hf ht => ⟨fun standby low high start upto => ?_, fun ne => ?_, fun standby out => ?_⟩⟩
  · rw [exec_takes (body := pipeBody) takes rfl, pipeBody_write standby hl hn, inRange_eq low high,
      ← appliedLatency_eq l n s.clk.s (by omega)]
    rfl
  · rw [exec_takes (body := pipeBody) takes rfl, pipeBody_write standby hl hn, inRange_none out]
  · rw [exec_takes (body := turnBody) takes rfl, turnBody_write hn hf ht, if_pos standby, if_pos ⟨low, high, start, upto⟩]
  · rw [exec_takes (body := turnBody) takes rfl, turnBody_write hn hf ht, if_neg ne]
  · rw [exec_takes (body := turnBody) takes rfl, turnBody_write hn hf ht, if_pos standby, if_neg (by omega)]

/-! ## clks (R38) -/

section

variable {tag : Byte} {s : State}

/-- A reply is formed with the class summary of the state it leaves. -/
theorem answer_replies {st : Status} {p : List Byte} {u : State} (ctl : u.ctl = s.ctl) :
    Replies tag st p s (answer tag st p u) := ⟨_, by rw [answer_eq, ctl]⟩

/-- With the Trim Engine IDLE the departure empties the pipeline's counts and stops injector, scan and run (R37). -/
theorem clockDeparture_idle (idle : s.trim.engine = .idle) :
    clockDeparture s = setScan .idle (setInjState .disarmed (acqDeparture (emptyCounts s))) := by
  have engine : (setScan .idle (setInjState .disarmed (acqDeparture (emptyCounts s)))).trim.engine = .idle := by
    rcases acqDeparture_cases (emptyCounts s) with e | ⟨-, e⟩ <;> rw [e] <;> exact idle
  rw [clockDeparture, trimDeparture, engine]

/-- Outside RUNNING the departure leaves acquisition (R45). -/
theorem acqDeparture_of_ne (h : s.acq.state ≠ .running) : acqDeparture s = s := by
  rcases acqDeparture_cases s with e | ⟨running, -⟩
  · exact e
  · exact absurd running h

/-- clks in a payload as it is sent, in STANDBY with the Trim Engine IDLE. -/
theorem clksBody_write {n p : Nat} (standby : s.acq.state = .standby) (idle : s.trim.engine = .idle) (h1 : 1 ≤ n)
    (h2 : n ≤ 2) (hp : p ≤ 63) :
    clksBody { tag := tag, payload := u8 n ++ u8 p } s =
      answer tag .ok (u8 (applyClks n p s).clk.s ++ u8 (applyClks n p s).clk.phase ++ u8 (applyClks n p s).clk.state.code)
        (applyClks n p s) := by
  have short : inLong s = false := by simp [inLong, idle]
  simp only [clksBody, u8, List.cons_append, List.nil_append, inStandby_true standby, short, toNat_byte n (by omega),
    toNat_byte p (by omega), inRange_eq h1 h2, inRange_eq (Nat.zero_le p) hp]
  rfl

/-- The settings of a clks write taken, and lock acquisition restarted (R38). -/
def restartClock (n p : Nat) (s : State) : State :=
  (s.mapPipe fun q => if n = 2 ∧ q.latency % 2 = 1 then { q with latency := q.latency + 1 } else q).mapClk fun _ =>
    { s := n, phase := p, state := if clockPresent s then .acquiring else .unlocked, lockCount := 0 }

theorem restartClock_clk (n p : Nat) (s : State) :
    (restartClock n p s).clk =
      { s := n, phase := p, state := if s.timing.link = .noSignal then .unlocked else .acquiring, lockCount := 0 } := by
  by_cases link : s.timing.link = .noSignal <;> simp [restartClock, clockPresent, link]

theorem applyClks_unlocked {n p : Nat} (h : s.clk.state ≠ .locked) : applyClks n p s = restartClock n p s := by
  simp only [applyClks, departIfLocked, h, decide_false, Bool.false_eq_true, if_false]
  rfl

theorem applyClks_locked {n p : Nat} (standby : s.acq.state = .standby) (idle : s.trim.engine = .idle)
    (h : s.clk.state = .locked) :
    applyClks n p s = setScan .idle (setInjState .disarmed (emptyCounts (restartClock n p s))) := by
  have departs : applyClks n p s = clockDeparture (restartClock n p s) := by
    simp only [applyClks, departIfLocked, h, decide_true, if_true]
    rfl
  rw [departs, clockDeparture_idle (s := restartClock n p s) idle, acqDeparture_of_ne]
  show s.acq.state ≠ .running
  simp [standby]

end

/-- Settles O43: the write departs from LOCKED as the clock's loss does, but hands over no condition. -/
theorem clksRestartsLock : Obligations.ClksRestartsLock := by
  unfold Obligations.ClksRestartsLock
  intro tag s n p takes standby idle h1 h2 hp
  refine ⟨_, (exec_takes (body := clksBody) takes rfl).trans (congrArg _ (clksBody_write standby idle h1 h2 hp)), ?_⟩
  have latency : (restartClock n p s).pipe.latency =
      if n = 2 ∧ s.pipe.latency % 2 = 1 then s.pipe.latency + 1 else s.pipe.latency := by
    unfold restartClock
    dsimp only [State.mapPipe_pipe, State.mapClk_pipe]
    split <;> rfl
  have kept : (restartClock n p s).pipe.window = s.pipe.window ∧ (restartClock n p s).pipe.w = s.pipe.w ∧
      (restartClock n p s).pipe.fill = s.pipe.fill := by
    unfold restartClock
    dsimp only [State.mapPipe_pipe, State.mapClk_pipe]
    split <;> exact ⟨rfl, rfl, rfl⟩
  obtain ⟨window, w, fill⟩ := kept
  have clk := restartClock_clk n p s
  have code : u8 n ++ u8 p ++ u8 (if s.timing.link = .noSignal then 0 else 1) =
      u8 (restartClock n p s).clk.s ++ u8 (restartClock n p s).clk.phase ++ u8 (restartClock n p s).clk.state.code := by
    rw [clk]
    by_cases link : s.timing.link = .noSignal <;> simp [link, ClockState.code]
  rw [code]
  by_cases locked : s.clk.state = .locked
  · rw [applyClks_locked standby idle locked]
    exact ⟨clk, latency, window, w, fun _ => ⟨rfl, rfl, rfl⟩, fun ne => absurd locked ne, rfl, rfl, rfl, rfl, rfl,
      answer_replies rfl⟩
  · rw [applyClks_unlocked locked]
    exact ⟨clk, latency, window, w, fun h => absurd h locked, fun _ => ⟨fill, rfl, rfl⟩, rfl, rfl, rfl, rfl, rfl,
      answer_replies rfl⟩

/-! ## frze, thaw and peek (R17, R18, R20) -/

/-- The bits of a mask of channels are its channels. -/
theorem maskOf_bits (f : Chan → Bool) : maskOf f < 65536 ∧ ∀ c : Chan, (maskOf f).testBit c.val = f c :=
  foldl_bits f

/-- Two bytes of a number are the bytes of the sixteen bits it makes. -/
theorem u16_extract {m : Nat} (h : m < 65536) :
    u16 m = [(BitVec.ofNat 16 m).extractLsb' 8 8, (BitVec.ofNat 16 m).extractLsb' 0 8] := by
  have whole : (BitVec.ofNat 16 m).toNat = m := by rw [BitVec.toNat_ofNat]; omega
  simp only [u16, List.cons.injEq, and_true]
  constructor <;> apply BitVec.eq_of_toNat_eq <;>
    simp only [BitVec.extractLsb'_toNat, whole, BitVec.toNat_ofNat, Nat.shiftRight_eq_div_pow]
  omega

theorem getElem_tab {n : Nat} {α : Type} (f : Fin n → α) (i : Fin n) : (tab f)[i] = f i := by simp [tab]

/-- The freeze mask in a reply, bit by bit. -/
theorem freezeMask_reply (tag : Byte) (s : State) : ∃ mask : BitVec 16,
    (∀ c : Chan, mask.getLsbD c.val = s.pipe.chans[c].frozen) ∧
      answer tag .ok (u16 (freezeMask s)) s = answer tag .ok [mask.extractLsb' 8 8, mask.extractLsb' 0 8] s := by
  obtain ⟨below, bits⟩ := maskOf_bits fun c => s.pipe.chans[c].frozen
  refine ⟨BitVec.ofNat 16 (freezeMask s), fun c => ?_, by rw [freezeMask, u16_extract below]⟩
  rw [BitVec.getLsbD, BitVec.toNat_ofNat, freezeMask, Nat.mod_eq_of_lt below]
  exact bits c

/-- The channels of the pipeline replaced, and the freeze mask answered. -/
def answerFrozen (tag : Byte) (chans : Vector ChanPipe 16) (s : State) : State :=
  answer tag .ok (u16 (freezeMask (s.mapPipe fun p => { p with chans := chans }))) (s.mapPipe fun p => { p with chans := chans })

theorem answerFrozen_spec (tag : Byte) (chans : Vector ChanPipe 16) (s : State) :
    (answerFrozen tag chans s).pipe.chans = chans ∧
      (∃ mask : BitVec 16, (∀ c : Chan, mask.getLsbD c.val = (answerFrozen tag chans s).pipe.chans[c].frozen) ∧
        answerFrozen tag chans s =
          answer tag .ok [mask.extractLsb' 8 8, mask.extractLsb' 0 8] { s with pipe := (answerFrozen tag chans s).pipe }) ∧
      (answerFrozen tag chans s).pipe = { s.pipe with chans := (answerFrozen tag chans s).pipe.chans } :=
  ⟨rfl, freezeMask_reply tag (s.mapPipe fun p => { p with chans := chans }), rfl⟩

/-- frze of the named channels (R17). -/
def frozenChans (m : ChanMask) (p : Pipeline) : Vector ChanPipe 16 :=
  tab fun c => if named m c then { p.chans[c] with frozen := true } else p.chans[c]

/-- thaw of the named channels (R18). -/
def thawedChans (m : ChanMask) (p : Pipeline) : Vector ChanPipe 16 :=
  tab fun c => if named m c && p.chans[c].frozen then { p.chans[c] with frozen := false, refill := 0 } else p.chans[c]

theorem frzeBody_mask (tag m1 m0 : Byte) (s : State) :
    frzeBody { tag := tag, payload := [m1, m0] } s = answerFrozen tag (frozenChans (readMask m1 m0) s.pipe) s := by
  rw [frzeBody]
  rfl

theorem thawBody_mask (tag m1 m0 : Byte) (s : State) :
    thawBody { tag := tag, payload := [m1, m0] } s = answerFrozen tag (thawedChans (readMask m1 m0) s.pipe) s := by
  rw [thawBody]
  rfl

theorem thawBody_badLen {tag : Byte} {s : State} {p : List Byte} (len : p.length ≠ 2) :
    thawBody { tag := tag, payload := p } s = answer tag .badLen [] s := by
  unfold thawBody
  split
  · next payload => exact absurd (congrArg List.length payload) len
  · rfl

/-- peek with legal operands (R20). -/
theorem peekBody_legal {tag : Byte} {s : State} (c : Chan) {off n : Nat} (low : 1 ≤ n) (high : n ≤ 32)
    (last : off + n ≤ 512) :
    peekBody { tag := tag, payload := u8 c.val ++ u16 off ++ u8 n } s =
      if s.pipe.chans[c].frozen then
        answer tag .ok (u8 c.val ++ u16 off ++ u8 n ++ u16 s.pipe.chans[c].newest.val ++
          (peekSlots s.pipe.chans[c] off n).flatMap slotBytes) s
      else answer tag .badState [] s := by
  simp only [peekBody, u8, u16, List.cons_append, List.nil_append, readChan_byte, toNat_byte n (by omega),
    be16_bytes off (by omega), inRange_eq low high, inRange_eq (Nat.zero_le off) (by omega : off ≤ 511),
    if_neg (by omega : ¬512 < off + n), answerOk, refuse]

/-- Settles O44: frze and thaw rewrite the channels alone, and peek reads one frozen ring. -/
theorem freezeThawAndPeek : Obligations.FreezeThawAndPeek := by
  unfold Obligations.FreezeThawAndPeek
  refine ⟨fun tag m1 m0 s takes => ?_, fun tag s takes => ⟨fun m1 m0 => ?_, fun p len => ?_⟩,
    fun tag s c off n takes low high last => ⟨fun frozen => ?_, fun thawed => ?_⟩⟩
  · obtain ⟨chans, mask, rest⟩ := answerFrozen_spec tag (frozenChans (readMask m1 m0) s.pipe) s
    refine ⟨_, (exec_takes (body := frzeBody) takes rfl).trans (congrArg _ (frzeBody_mask tag m1 m0 s)), fun c => ?_, mask, rest⟩
    rw [chans, frozenChans, getElem_tab, named, readMask_pair]
    cases (m1 ++ m0).getLsbD c.val
    · rw [Bool.or_false]; rfl
    · rw [Bool.or_true]; rfl
  · obtain ⟨chans, mask, rest⟩ := answerFrozen_spec tag (thawedChans (readMask m1 m0) s.pipe) s
    refine ⟨_, (exec_takes (body := thawBody) takes rfl).trans (congrArg _ (thawBody_mask tag m1 m0 s)), fun c => ?_, mask, rest⟩
    rw [chans, thawedChans, getElem_tab, named, readMask_pair]
    simp only [Bool.and_eq_true]
  · rw [exec_takes (body := thawBody) takes rfl, thawBody_badLen len]
  · rw [exec_takes (body := peekBody) takes rfl, peekBody_legal c low high last, if_pos frozen, peekSlots, List.flatMap_map]
  · rw [exec_takes (body := peekBody) takes rfl, peekBody_legal c low high last, thawed, if_neg Bool.false_ne_true]

end Sys2Proof.Machine
end


section
/-!
Chapter 3: what strt, stop and rset do, the occurrences in STANDBY and DRAINING, and the throttle in one equation.
-/

namespace Sys2Proof.Machine

/-! ## Occurrences and throttle, each in one equation -/

/-- The table after an occurrence (R182). -/
def CondTable.occur (c : Cond) (ev : Option EventNum) (t : CondTable) : CondTable :=
  { t with recs := put t.recs c.num (t.recs[c.num].occur ev) }

theorem CondTable.occur_rec (c : Cond) (ev : Option EventNum) (t : CondTable) :
    (t.occur c ev).recs[c.num] = t.recs[c.num].occur ev := by simp [CondTable.occur, put]

theorem CondTable.occur_rec_other {c : Cond} {ev : Option EventNum} {t : CondTable} {i : Fin 25} (h : i ≠ c.num) :
    (t.occur c ev).recs[i] = t.recs[i] := by
  simp only [CondTable.occur, put, Fin.getElem_fin]
  exact Vector.getElem_set_ne _ _ (by omega)

theorem occur_cond (c : Cond) (ev : Option EventNum) (s : State) : (occur c ev s).cond = s.cond.occur c ev := by
  rw [occur, changeConds_cond]
  rfl

/-- In STANDBY and DRAINING class 3 moves nothing, so that an occurrence changes the table alone (R46). -/
theorem changeConds_rested (f : CondTable → CondTable) {s : State} (h : s.acq.state = .standby ∨ s.acq.state = .draining) :
    changeConds f s = s.mapCond f := by
  unfold changeConds
  dsimp only
  split
  · rcases h with h | h <;> simp [onClass3Raised, h]
  · rcases h with h | h <;> simp [onClass3Cleared, h]
  · rfl
  · rfl

theorem occur_rested (c : Cond) (ev : Option EventNum) {s : State}
    (h : s.acq.state = .standby ∨ s.acq.state = .draining) : occur c ev s = s.mapCond (CondTable.occur c ev) :=
  changeConds_rested _ h

theorem setThrottle_same {s : State} {on : Bool} (h : s.aq.throttle = on) : setThrottle on s.tx.waitingFrame s = s := by
  subst h
  rfl

theorem throttleOn_exact (s : State) :
    throttleOn s = setThrottle true (if s.aq.throttle then s.tx.waitingFrame else some .busyOn) s := by
  unfold throttleOn
  by_cases on : s.aq.throttle = true
  · rw [if_pos on, if_pos on, setThrottle_same on]
  · rw [if_neg on, if_neg on]
    rfl

theorem throttleOff_exact (s : State) :
    throttleOff s = setThrottle false (if s.aq.throttle then some .busyOff else s.tx.waitingFrame) s := by
  unfold throttleOff
  by_cases on : s.aq.throttle = true
  · rw [if_pos on, if_pos on]
    rfl
  · rw [if_neg on, if_neg on, setThrottle_same (Bool.eq_false_iff.2 on)]

/-- Outside SUSPENDED the throttle is left on only above lo (R70). -/
theorem throttleRelax_exact {s : State} (h : s.acq.state ≠ .suspended) :
    throttleRelax s = setThrottle (s.aq.throttle && decide (s.aq.lo < slotsInUse s))
      (if s.aq.throttle ∧ slotsInUse s ≤ s.aq.lo then some .busyOff else s.tx.waitingFrame) s := by
  unfold throttleRelax
  by_cases low : slotsInUse s ≤ s.aq.lo
  · rw [if_pos ⟨h, low⟩, throttleOff_exact]
    simp [low, Nat.not_lt.2 low]
  · rw [if_neg (by simp [low])]
    simpa [low, Nat.not_le.1 low] using (setThrottle_same rfl).symm

/-! ## strt (R41, R42) -/

section

variable {tag : Byte} {s : State}

theorem findSome?_finRange {n : Nat} {β : Type} {f : Fin n → Option β} {c : Fin n} {b : β} (found : f c = some b)
    (before : ∀ d < c, f d = none) : (List.finRange n).findSome? f = some b := by
  induction n with
  | zero => exact c.elim0
  | succ n ih =>
    rw [List.finRange_succ]
    refine Fin.cases (fun found _ => ?_) (fun c found before => ?_) c found before
    · rw [List.findSome?_cons, found]
    · rw [List.findSome?_cons, before 0 (Fin.succ_pos c), List.findSome?_map]
      exact ih (f := f ∘ Fin.succ) found fun d less => before d.succ (Fin.succ_lt_succ_iff.2 less)

theorem filterFault_none {c : Chan} (h : s.front.recs[c].enable = true →
    s.filt.sets[s.front.recs[c].hgSet].length = s.pipe.window ∧
      s.filt.sets[s.front.recs[c].lgSet].length = s.pipe.window) : filterFault s c = none := by
  unfold filterFault
  dsimp only
  split
  · next on => rw [if_neg (not_not.2 (h on).1), if_neg (not_not.2 (h on).2)]
  · rfl

theorem firstFilterFault_of_fit (h : FiltersFit s) : firstFilterFault s = none := by
  refine List.findSome?_eq_none_iff.2 fun c _ => ?_
  rw [filterFault_none (h c)]
  rfl

/-- The first channel whose sets do not fit is named, with HG where its HG set does not (R41). -/
theorem firstFilterFault_at {c : Chan} (on : s.front.recs[c].enable = true)
    (fault : s.filt.sets[s.front.recs[c].hgSet].length ≠ s.pipe.window ∨
      s.filt.sets[s.front.recs[c].lgSet].length ≠ s.pipe.window)
    (before : ∀ d : Chan, d < c → s.front.recs[d].enable = true →
      s.filt.sets[s.front.recs[d].hgSet].length = s.pipe.window ∧
        s.filt.sets[s.front.recs[d].lgSet].length = s.pipe.window) :
    firstFilterFault s =
      some (c, if s.filt.sets[s.front.recs[c].hgSet].length ≠ s.pipe.window then .hg else .lg) := by
  refine findSome?_finRange (c := c) ?_ fun d less => ?_
  · have at_ : filterFault s c = some (if s.filt.sets[s.front.recs[c].hgSet].length ≠ s.pipe.window then .hg else .lg) := by
      simp only [filterFault, on, if_true]
      by_cases hg : s.filt.sets[s.front.recs[c].hgSet].length ≠ s.pipe.window
      · rw [if_pos hg, if_pos hg]
      · rw [if_neg hg, if_neg hg, if_pos (fault.resolve_left hg)]
    rw [at_]
    rfl
  · rw [filterFault_none (before d less)]
    rfl

theorem strtBody_notStandby (h : s.acq.state ≠ .standby) :
    strtBody { tag := tag, payload := [] } s = answer tag .badState (u8 0 ++ u8 s.acq.state.code) s := by
  simp only [strtBody, inStandby_false h]
  rfl

theorem strtBody_noLock (standby : s.acq.state = .standby) (h : s.clk.state ≠ .locked) :
    strtBody { tag := tag, payload := [] } s = answer tag .badState (u8 1 ++ u8 0) s := by
  simp only [strtBody, inStandby_true standby, if_pos h, refuseStart, standby]
  rfl

theorem strtBody_trim (standby : s.acq.state = .standby) (locked : s.clk.state = .locked) (h : inLong s = true) :
    strtBody { tag := tag, payload := [] } s = answer tag .badState (u8 2 ++ u8 0) s := by
  simp only [strtBody, inStandby_true standby, if_neg (not_not.2 locked), h, refuseStart, standby]
  rfl

/-- strt that reaches the check of the filter sets. -/
theorem strtBody_checked (standby : s.acq.state = .standby) (locked : s.clk.state = .locked) (short : inLong s = false) :
    strtBody { tag := tag, payload := [] } s =
      match firstFilterFault s with
      | some (c, g) => answer tag .badState (u8 3 ++ u8 0 ++ u8 c.val ++ u8 (gainCode g)) s
      | none => answer tag .ok (u8 (startRun s).acq.state.code ++ u16 (startRun s).acq.startL ++ u8 (startRun s).acq.startN
          ++ u8 (startRun s).acq.startS) (startRun s) := by
  simp only [strtBody, inStandby_true standby, if_neg (not_not.2 locked), short, refuseStart, standby]
  cases firstFilterFault s <;> rfl

theorem strtBody_badLen {p : List Byte} (h : p ≠ []) : strtBody { tag := tag, payload := p } s = answer tag .badLen [] s := by
  cases p with
  | nil => exact absurd rfl h
  | cons b t => rfl

/-- A run starts in PRIMING, or with class 3 raised in SUSPENDED with the throttle on (R42). -/
theorem startRun_eq (s : State) : ∃ wf, startRun s =
    setThrottle (s.aq.throttle || class3 s) wf (setAcq (if class3 s then .suspended else .priming) (copySettings s)) := by
  rcases startRun_cases s with ⟨c3, e⟩ | ⟨c3, wf, e⟩
  · exact ⟨s.tx.waitingFrame, by rw [e, c3, Bool.or_false]; rfl⟩
  · exact ⟨wf, by rw [e, c3, Bool.or_true]; rfl⟩

end

/-- Settles O45: the checks of strt in their order, and the run that starts where they pass. -/
theorem strtStartsRunOrRefuses : Obligations.StrtStartsRunOrRefuses := by
  unfold Obligations.StrtStartsRunOrRefuses
  refine ⟨fun tag s takes standby locked short fit => ?_, fun tag s takes => ⟨fun p long => ?_, fun ne => ?_,
    fun standby unlocked => ?_, fun standby locked long => ?_, fun standby locked short c on fault before => ?_⟩⟩
  · refine ⟨_, exec_takes (body := strtBody) takes rfl, ?_⟩
    rw [strtBody_checked standby locked short, firstFilterFault_of_fit fit]
    obtain ⟨wf, e⟩ := startRun_eq s
    rw [e]
    refine ⟨rfl, rfl, rfl, ?_, rfl, rfl, rfl, rfl, rfl, rfl, rfl, rfl, rfl, rfl, rfl, rfl⟩
    have code : (if class3 s then 3 else 1) = (if class3 s then AcqState.suspended else .priming).code := by
      cases class3 s <;> rfl
    rw [code]
    exact answer_replies rfl
  · rw [exec_takes (body := strtBody) takes rfl, strtBody_badLen long]
  · rw [exec_takes (body := strtBody) takes rfl, strtBody_notStandby ne]
  · rw [exec_takes (body := strtBody) takes rfl, strtBody_noLock standby unlocked]
  · rw [exec_takes (body := strtBody) takes rfl, strtBody_trim standby locked long]
  · rw [exec_takes (body := strtBody) takes rfl, strtBody_checked standby locked short, firstFilterFault_at on fault before]
    by_cases hg : s.filt.sets[s.front.recs[c].hgSet].length ≠ s.pipe.window
    · simp only [if_pos hg]; rfl
    · simp only [if_neg hg]; rfl

/-! ## stop (R47, R48) -/

section

variable {tag : Byte} {s : State}

theorem stopBody_empty : stopBody { tag := tag, payload := [] } s = answer tag .ok (u8 (stopRun s).acq.state.code) (stopRun s) :=
  rfl

theorem drainTest_owing (h : drained s = false) : drainTest s = s := by simp [drainTest, h]

theorem drainTest_done (draining : s.acq.state = .draining) (h : drained s = true) : drainTest s = enterStandby s := by
  simp [drainTest, draining, h]

theorem stopRun_rested (h : s.acq.state = .standby ∨ s.acq.state = .draining) : stopRun s = s := by
  rcases h with h | h <;> simp [stopRun, h]

/-- DRAINING as stop enters it: leaving SUSPENDED decides the throttle (R47, R70). -/
theorem stopRun_leaving (h : s.acq.state = .priming ∨ s.acq.state = .running ∨ s.acq.state = .suspended) :
    ∃ th wf, stopRun s = drainTest (setThrottle th wf (setAcq .draining s)) ∧
      (s.acq.state ≠ .suspended → th = s.aq.throttle ∧ wf = s.tx.waitingFrame) ∧
      (s.acq.state = .suspended → th = (s.aq.throttle && decide (s.aq.lo < slotsInUse s))) := by
  rcases stopRun_cases s with ⟨-, e | e⟩ | ⟨-, ne, e⟩ | ⟨suspended, e⟩
  · simp [e] at h
  · simp [e] at h
  · exact ⟨_, _, e, fun _ => ⟨rfl, rfl⟩, fun e => absurd e ne⟩
  · rw [throttleRelax_exact (by simp [setAcq])] at e
    exact ⟨_, _, e, fun ne => absurd suspended ne, fun _ => rfl⟩

theorem setThrottle_drained (th : Bool) (wf : Option ThrottleFrame) (x : AcqState) :
    drained (setThrottle th wf (setAcq x s)) = drained s := rfl

/-- STANDBY entered leaves no commit pending (R137). -/
theorem enterStandby_pending (s : State) : (enterStandby s).list.pending = false := by
  rw [enterStandby_eq]
  split
  · rw [occur_rested _ _ (.inl (by rw [applyCommit]; rfl))]
    rfl
  · next none => exact Bool.eq_false_iff.2 none

theorem enterStandby_parts (s : State) :
    (enterStandby s).acq = { s.acq with state := .standby } ∧ (enterStandby s).pipe = s.pipe ∧
      (enterStandby s).ctl = s.ctl := by
  obtain ⟨cond, st, th, wf, e⟩ := enterStandby_frame s
  have state := enterStandby_state s
  rw [e] at state ⊢
  exact ⟨by rw [← state], rfl, rfl⟩

end

/-- Settles O46: stop enters DRAINING and has the end of draining tested. -/
theorem stopDrains : Obligations.StopDrains := by
  unfold Obligations.StopDrains
  intro tag s takes
  have run : exec (.stop { tag := tag, payload := [] }) s = .next (stopBody { tag := tag, payload := [] } s) :=
    exec_takes takes rfl
  rw [run, stopBody_empty]
  refine ⟨fun active owing => ?_, fun suspended owing => ?_, fun active records idle buffer => ?_, fun rested => ?_⟩
  · obtain ⟨th, wf, e, same, -⟩ := stopRun_leaving (s := s) (by tauto)
    obtain ⟨rfl, rfl⟩ := same (by rcases active with h | h <;> simp [h])
    rw [e, drainTest_owing ((setThrottle_drained _ _ _).trans owing)]
    rfl
  · obtain ⟨th, wf, e, -, relaxed⟩ := stopRun_leaving (.inr (.inr suspended))
    rw [e, drainTest_owing ((setThrottle_drained _ _ _).trans owing), relaxed suspended]
    exact ⟨_, rfl, rfl, rfl, rfl, rfl⟩
  · obtain ⟨th, wf, e, -, -⟩ := stopRun_leaving active
    have done : drained s = true := (drained_iff s).2 ⟨records, idle, buffer⟩
    obtain ⟨acq, pipe, ctl⟩ := enterStandby_parts (setThrottle th wf (setAcq .draining s))
    rw [e, drainTest_done rfl ((setThrottle_drained _ _ _).trans done)]
    refine ⟨_, rfl, acq, ?_, enterStandby_pending _, pipe⟩
    rw [acq]
    exact answer_replies ctl
  · rw [stopRun_rested rested]
    rfl

/-! ## rset (R49 to R53) -/

section

variable {tag : Byte} {s : State}

/-- The readout list after entry into STANDBY: a pending commit is applied (R137). -/
def ReadoutList.entered (l : ReadoutList) : ReadoutList :=
  if l.pending then { l with active := l.staged, generation := l.generation + 1, pending := false, swap := true } else l

/-- A channel-gain after rset: one in progress in a long trim is ABORTED (R90). -/
def TrimEngine.reset (x : TrimEngine) (gains : Vector (PerGain TrimInfo) 16) : Vector (PerGain TrimInfo) 16 :=
  match x with
  | .idle => gains
  | .manual _ => gains
  | .long t =>
    let mark := fun (q : Option Search) (i : TrimInfo) => if q.isSome then { i with status := .aborted } else i
    tab fun c => ⟨mark t.searches[c].hg gains[c].hg, mark t.searches[c].lg gains[c].lg⟩

/-- The Condition Table after rset: LIST_SWAP_STOP, then TRIM_ABORT, where they occur, and the counters at zero. -/
def resetConds (s : State) : CondTable :=
  let t1 := if s.list.pending then s.cond.occur .listSwapStop none else s.cond
  let t2 := if inLong s then t1.occur .trimAbort none else t1
  { t2 with counters := Counters.zero }

theorem enterStandby_exact (s : State) :
    enterStandby s =
      { s with
        acq := { s.acq with state := .standby }
        list := s.list.entered
        cond := if s.list.pending then s.cond.occur .listSwapStop none else s.cond } := by
  rw [enterStandby_eq]
  unfold ReadoutList.entered
  by_cases pending : s.list.pending = true
  · rw [if_pos pending, if_pos pending, if_pos pending, occur_rested _ _ (.inl (by rw [applyCommit]; rfl))]
    rfl
  · rw [if_neg pending, if_neg pending, if_neg pending]
    rfl

theorem resetTrim_exact (s : State) (standby : s.acq.state = .standby) :
    resetTrim s =
      { s with
        trim := { s.trim with engine := .idle, gains := s.trim.engine.reset s.trim.gains }
        cond := if inLong s then s.cond.occur .trimAbort none else s.cond } := by
  cases engine : s.trim.engine with
  | idle =>
    simp only [resetTrim, inLong, engine, TrimEngine.reset, Bool.false_eq_true, if_false]
    rw [← engine]
  | manual m =>
    simp only [resetTrim, inLong, engine, TrimEngine.reset, Bool.false_eq_true, if_false]
    rfl
  | long t =>
    simp only [resetTrim, inLong, engine, TrimEngine.reset, if_true, abortLong]
    rw [occur_rested .trimAbort none (s := s.mapTrim _) (.inl standby)]
    rfl

/-- What rset leaves, block by block (R49 to R53). -/
theorem softReset_exact (s : State) :
    softReset s =
      { s with
        acq := { s.acq with state := .standby }
        pipe := (emptyCounts s).pipe
        aq := { s.aq with records := [], snaps := tab fun _ => none, gap := 0, history := [], throttle := false,
                          recordMark := 0, slotMark := 0 }
        builder := { state := .idle, inFlight := none }
        tx := { s.tx with buffer := s.tx.buffer.take (s.tx.begun.getD 0), credits := 0, stallTimer := 0,
                          stallMark := false,
                          waitingFrame := if s.aq.throttle then some .busyOff else s.tx.waitingFrame }
        ped := (resetTracker s).ped
        trim := { s.trim with engine := .idle, gains := s.trim.engine.reset s.trim.gains }
        inj := { s.inj with state := .disarmed, pending := [] }
        integ := { s.integ with scan := .idle }
        list := s.list.entered
        cond := resetConds s } := by
  have steps : softReset s = tally (fun _ => Counters.zero) (setScan .idle (resetInjector (resetTracker (resetTrim
      (enterStandby (resetReadout (throttleOff ((emptyCounts s).mapAq fun q =>
        { q with records := [], snaps := tab fun _ => none, gap := 0, history := [], recordMark := 0,
                 slotMark := 0 })))))))) := rfl
  rw [steps, throttleOff_exact, enterStandby_exact, resetTrim_exact _ rfl]
  rfl

theorem rsetBody_empty : rsetBody { tag := tag, payload := [] } s =
    if s.tx.begun.isNone && !s.aq.throttle then rsetReply tag (softReset s)
    else (softReset s).mapCtl fun c => { c with executing := .rset tag s.aq.throttle } := rfl

theorem resetConds_other {i : Fin 25} (h1 : i ≠ 10) (h2 : i ≠ 24) : (resetConds s).recs[i] = s.cond.recs[i] := by
  have other : ∀ (b : Bool) (c : Cond) (t : CondTable), i ≠ c.num → (if b then t.occur c none else t).recs[i] = t.recs[i] := by
    intro b c t ne
    cases b
    · rfl
    · exact CondTable.occur_rec_other ne
  exact (other (inLong s) .trimAbort _ h1).trans (other s.list.pending .listSwapStop _ h2)

theorem resetConds_trimAbort (h : inLong s = true) : (resetConds s).recs[(10 : Fin 25)].latch = true := by
  simp only [resetConds, h, if_true]
  exact (congrArg CondRec.latch (CondTable.occur_rec .trimAbort none _)).trans rfl

theorem resetConds_swapStop (h : s.list.pending = true) : (resetConds s).recs[(24 : Fin 25)].latch = true := by
  have swapped : (s.cond.occur .listSwapStop none).recs[(24 : Fin 25)].latch = true :=
    (congrArg CondRec.latch (CondTable.occur_rec .listSwapStop none _)).trans rfl
  by_cases long : inLong s = true
  · simp only [resetConds, h, long, if_true]
    exact (congrArg CondRec.latch (CondTable.occur_rec_other (by decide))).trans swapped
  · simp only [resetConds, h, if_true, if_neg long]
    exact swapped

end

/-- The state of rset but for the port: what it answers or how it is held comes on top. -/
theorem rsetBody_cases (tag : Byte) (s : State) :
    (s.tx.begun = none ∧ s.aq.throttle = false ∧
        rsetBody { tag := tag, payload := [] } s = answer tag .ok [0] (softReset s)) ∨
      ((s.tx.begun ≠ none ∨ s.aq.throttle = true) ∧
        rsetBody { tag := tag, payload := [] } s =
          (softReset s).mapCtl fun c => { c with executing := .rset tag s.aq.throttle }) := by
  rw [rsetBody_empty]
  by_cases now : s.tx.begun = none ∧ s.aq.throttle = false
  · refine .inl ⟨now.1, now.2, ?_⟩
    rw [if_pos (by simp [now]), rsetReply, softReset_exact]
    rfl
  · refine .inr ⟨?_, if_neg (by simpa using now)⟩
    cases throttle : s.aq.throttle
    · exact .inl fun begun => now ⟨begun, throttle⟩
    · exact .inr rfl

/-- The accumulators and the channel-gains after rset (R52, R90). -/
theorem softReset_gains (s : State) (c : Chan) (g : Gain) :
    (softReset s).ped.chans[c].gains.get g = { s.ped.chans[c].gains.get g with count := 0, sum := 0, blank := false } ∧
      (softReset s).ped.chans[c].settings = s.ped.chans[c].settings ∧
      (softReset s).trim.gains[c].get g =
        match s.trim.engine with
        | .long t0 =>
          if (t0.searches[c].get g).isSome then { s.trim.gains[c].get g with status := .aborted }
          else s.trim.gains[c].get g
        | .idle => s.trim.gains[c].get g
        | .manual _ => s.trim.gains[c].get g := by
  have track : (resetTracker s).ped.chans[c] =
      { s.ped.chans[c] with gains := ⟨s.ped.chans[c].gains.hg.discard, s.ped.chans[c].gains.lg.discard⟩ } :=
    getElem_tab _ c
  rw [softReset_exact]
  dsimp only
  rw [track]
  refine ⟨by cases g <;> rfl, rfl, ?_⟩
  cases s.trim.engine with
  | idle => rfl
  | manual m => rfl
  | long t =>
    simp only [TrimEngine.reset, getElem_tab]
    cases g <;> rfl

/-- In STANDBY with nothing to build a block completion lets its words go, and no more. -/
theorem completeBlock_standby {s : State} {n : Nat} (standby : s.acq.state = .standby) (records : s.aq.records = [])
    (idle : s.builder.state = .idle) (begun : s.tx.begun = some n) : completeBlock s = releaseBlock n s := by
  rw [completeBlock, begun]
  show drainTest (settleBuilder (releaseBlock n s)) = _
  rw [settleBuilder_idle (releaseBlock n s) idle records, drainTest, if_neg]
  show ¬(s.acq.state = .draining ∧ _)
  simp [standby]

theorem completeRset_due {s : State} {tag : Byte} {b : Bool} (h : s.ctl.executing = .rset tag b) (due : rsetDue s = true) :
    completeRset s = answer tag .ok (u8 s.acq.state.code) s := by
  rw [completeRset, h]
  simp only [due, if_true]
  rfl

theorem completeRset_notDue {s : State} (h : rsetDue s = false) : completeRset s = s := by
  unfold completeRset
  split
  · rw [if_neg (by simp [h])]
  all_goals rfl

theorem rsetDue_false {s : State} {tag : Byte} (h : s.ctl.executing = .rset tag false) (free : s.tx.begun = none) :
    rsetDue s = true := by
  simp [rsetDue, h, free]

theorem completeRset_due_standby {s : State} {tag : Byte} (standby : s.acq.state = .standby)
    (rset : s.ctl.executing = .rset tag false) (free : s.tx.begun = none) : completeRset s = answer tag .ok [0] s := by
  rw [completeRset_due rset (rsetDue_false rset free), standby]
  rfl

/-- Settles O47: the soft reset in one equation, and its completion where the block or the BUSY-OFF has gone. -/
theorem rsetResetsAndCompletes : Obligations.RsetResetsAndCompletes := by
  unfold Obligations.RsetResetsAndCompletes
  refine ⟨fun tag s idle => ?_, fun tag s0 n => ?_, fun tag s0 => ?_, fun s0 => ?_⟩
  · refine ⟨_, exec_always (body := rsetBody) idle rfl, ?_⟩
    have gains := softReset_gains s
    rcases rsetBody_cases tag s with ⟨begun, throttle, e⟩ | ⟨waits, e⟩
    · rw [e]
      rw [softReset_exact] at gains ⊢
      exact ⟨rfl, rfl, rfl, rfl, rfl, rfl, rfl, rfl, rfl, gains, rfl, rfl, rfl, rfl, rfl,
        fun i h1 h2 => resetConds_other h1 h2, resetConds_trimAbort, resetConds_swapStop,
        fun _ _ => answer_replies rfl, fun waits => by simp [begun, throttle] at waits⟩
    · rw [e]
      rw [softReset_exact] at gains ⊢
      exact ⟨rfl, rfl, rfl, rfl, rfl, rfl, rfl, rfl, rfl, gains, rfl, rfl, rfl, rfl, rfl,
        fun i h1 h2 => resetConds_other h1 h2, resetConds_trimAbort, resetConds_swapStop,
        fun begun throttle => by simp [begun, throttle] at waits, fun _ => rfl⟩
  · intro s standby records builder
    refine ⟨fun rset begun => ?_, fun rset begun waiting => ?_, fun rset begun => ?_⟩
    · show Host.Outcome.next (completeRset (completeBlock s)) = _
      rw [completeBlock_standby standby records builder begun, completeRset_due_standby (s := releaseBlock n s) standby rset rfl]
      rfl
    · show Host.Outcome.next (completeRset (frameBoundary s)) = _
      have sent : frameBoundary s = sendThrottle .busyOff s := by rw [frameBoundary, begun, waiting]
      have executing : (sendThrottle .busyOff s).ctl.executing = .rset tag false := by
        simp [sendThrottle, rset, Execution.busyOffSent]
      rw [sent, completeRset_due_standby (s := sendThrottle .busyOff s) standby executing begun, answer_eq, answer_eq]
      rfl
    · show Host.Outcome.next (completeRset (completeBlock s)) = _
      rw [completeBlock_standby standby records builder begun, completeRset_notDue]
      · rfl
      · simp [rsetDue, releaseBlock, rset]
  · intro s rset begun
    show Host.Outcome.next (completeRset s) = _
    rw [completeRset_due rset (rsetDue_false rset begun)]
    rfl
  · intro s due
    show Host.Outcome.next (completeRset s) = _
    rw [completeRset_notDue due]

end Sys2Proof.Machine
end


section
/-!
Chapters 4, 5, 8 and 9: the commands that take settings (rule, busy, srci, stlm, intl), and trks and pedl.
-/

namespace Sys2Proof.Machine

section

variable {tag : Byte} {s : State}

/-! ## Settings (R57, R72, R150, R160, R178) -/

theorem ruleBody_write {k w : Nat} (d : Bool) (hk : k ≤ 8) (h1 : 1 ≤ w) (h2 : w ≤ 65535) :
    ruleBody { tag := tag, payload := u8 k ++ u16 w ++ u8 (flagCode d) } s =
      answer tag .ok (u8 k ++ u16 w ++ u8 (flagCode d))
        { s with aq := { s.aq with ruleK := k, ruleW := w, degrade := d, history := [] } } := by
  simp only [ruleBody, u8, u16, List.cons_append, List.nil_append, toNat_byte k (by omega), be16_bytes w (by omega),
    inRange_eq (Nat.zero_le k) hk, inRange_eq h1 h2, readFlag_byte]
  rfl

/-- The throttle after a busy write (R72). -/
theorem throttleAgainst_exact (s : State) :
    throttleAgainst s =
      setThrottle (if s.aq.throttle then decide (s.acq.state = .suspended ∨ s.aq.lo < slotsInUse s)
          else decide (s.aq.hi ≤ slotsInUse s))
        (if (if s.aq.throttle then decide (s.acq.state = .suspended ∨ s.aq.lo < slotsInUse s)
            else decide (s.aq.hi ≤ slotsInUse s)) = s.aq.throttle then s.tx.waitingFrame
          else some (if (if s.aq.throttle then decide (s.acq.state = .suspended ∨ s.aq.lo < slotsInUse s)
            else decide (s.aq.hi ≤ slotsInUse s)) then .busyOn else .busyOff)) s := by
  unfold throttleAgainst
  cases on : s.aq.throttle
  · by_cases above : s.aq.hi ≤ slotsInUse s
    · simp [above, throttleOn_exact, on]
    · simp [above, setThrottle_same on]
  · by_cases suspended : s.acq.state = .suspended
    · simp [suspended, throttleRelax_suspended, setThrottle_same on]
    · by_cases low : slotsInUse s ≤ s.aq.lo
      · simp [throttleRelax_exact suspended, suspended, on, low, Nat.not_lt.2 low]
      · simp [throttleRelax_exact suspended, suspended, on, low, Nat.not_le.1 low]

theorem busyBody_write {hi lo : Nat} (h1 : 1 ≤ hi) (h2 : hi ≤ 16) (h3 : lo < hi) :
    busyBody { tag := tag, payload := u8 hi ++ u8 lo } s =
      answer tag .ok
        (u8 (throttleAgainst (s.mapAq fun q => { q with hi := hi, lo := lo })).aq.hi ++
          u8 (throttleAgainst (s.mapAq fun q => { q with hi := hi, lo := lo })).aq.lo ++
          u8 (flagCode (throttleAgainst (s.mapAq fun q => { q with hi := hi, lo := lo })).aq.throttle))
        (throttleAgainst (s.mapAq fun q => { q with hi := hi, lo := lo })) := by
  simp only [busyBody, u8, List.cons_append, List.nil_append, toNat_byte hi (by omega), toNat_byte lo (by omega),
    inRange_eq h1 h2, if_pos h3]
  rfl

theorem stlmBody_write {n : Nat} (h1 : 1 ≤ n) (h2 : n ≤ 65535) :
    stlmBody { tag := tag, payload := u16 n } s =
      answer tag .ok (u16 n) { s with tx := { s.tx with stallLimit := n, stallTimer := min s.tx.stallTimer (n * 256) } } := by
  simp only [stlmBody, u16, be16_bytes n (by omega), inRange_eq h1 h2]
  rfl

theorem intlBody_write {v : Nat} (h : v ≤ 16777215) :
    intlBody { tag := tag, payload := u24 v } s = answer tag .ok (u24 v) { s with integ := { s.integ with limit := v } } := by
  simp only [intlBody, u24, be24_bytes v (by omega)]
  rfl

theorem srciBody_write {v : Nat} (h : v ≤ 255) :
    srciBody { tag := tag, payload := u8 v } s = answer tag .ok (u8 v) { s with tx := { s.tx with sourceId := v } } := by
  simp only [srciBody, u8, toNat_byte v h]
  rfl

/-! ## trks and pedl (R76, R77) -/

theorem trksBody_write (mask : ChanMask) {t : TrackSettings} (legal : t.Legal) :
    trksBody { tag := tag, payload := maskBytes mask ++ trackSettingBytes t } s =
      answer tag .ok (maskBytes mask ++ trackSettingBytes t)
        (s.mapPed fun p => { p with chans := tab fun c => if named mask c then p.chans[c].configure t else p.chans[c] }) := by
  have payload : maskBytes mask ++ trackSettingBytes t = [BitVec.ofNat 8 (mask.toNat / 256), BitVec.ofNat 8 mask.toNat,
      BitVec.ofNat 8 (flagCode t.tracking), BitVec.ofNat 8 (flagCode t.autoTrim), BitVec.ofNat 8 (t.target.hg / 256),
      BitVec.ofNat 8 t.target.hg, BitVec.ofNat 8 (t.target.lg / 256), BitVec.ofNat 8 t.target.lg,
      BitVec.ofNat 8 t.hysteresis, BitVec.ofNat 8 t.blockExp, BitVec.ofNat 8 t.updateExp] := rfl
  rw [payload, trksBody]
  simp only [readTrackSettings_bytes t legal, readMask_bytes, answerOk, payload]

theorem trksBody_read (c : Chan) :
    trksBody { tag := tag, payload := u8 c.val } s =
      answer tag .ok (trackSettingBytes s.ped.chans[c].settings ++ gainTrackBytes s.ped.chans[c].gains.hg
        ++ gainTrackBytes s.ped.chans[c].gains.lg) s := by
  simp only [trksBody, u8, readChan_byte, answerOk]

theorem pedlBody_write (mask : ChanMask) {g v : Nat} (hg : g ≤ 2) (hv : v ≤ 65535) :
    pedlBody { tag := tag, payload := maskBytes mask ++ u8 g ++ u16 v } s =
      if 65520 < v then
        answer tag .clamped (u16 (min v 65520))
          (occur .pedRange none (loadPedestals mask ⟨decide (g ≠ 1), decide (g ≠ 0)⟩ (min v 65520) s))
      else answer tag .ok (u16 (min v 65520)) (loadPedestals mask ⟨decide (g ≠ 1), decide (g ≠ 0)⟩ (min v 65520) s) := by
  simp only [pedlBody, maskBytes, u8, u16, List.cons_append, List.nil_append, readGainSel_byte g hg, readMask_bytes,
    be16_bytes v (by omega), answerOk]

theorem loadPedestals_eq (mask : ChanMask) {g : Nat} (hg : g ≤ 2) (p : Nat) (s : State) :
    loadPedestals mask ⟨decide (g ≠ 1), decide (g ≠ 0)⟩ p s =
      { s with ped := { s.ped with
        chans := Vector.ofFn fun c =>
          if mask.getLsbD c.val then
            { s.ped.chans[c] with
              gains := ⟨if g = 1 then s.ped.chans[c].gains.hg else { s.ped.chans[c].gains.hg with p := p },
                        if g = 0 then s.ped.chans[c].gains.lg else { s.ped.chans[c].gains.lg with p := p }⟩ }
          else s.ped.chans[c] } } := by
  have selected : g = 0 ∨ g = 1 ∨ g = 2 := by omega
  rcases selected with rfl | rfl | rfl <;> rfl

end

/-- Settles O48: each write is read back from its bytes, and busy sets the throttle anew. -/
theorem settingWritesReplace : Obligations.SettingWritesReplace := by
  unfold Obligations.SettingWritesReplace
  refine fun tag s takes => ⟨fun k w d hk h1 h2 => ?_, fun hi lo h1 h2 h3 => ?_, fun v h => ?_, fun n h1 h2 => ?_,
    fun v h => ?_⟩
  · rw [exec_takes (body := ruleBody) takes rfl, ruleBody_write d hk h1 h2]
  · rw [exec_takes (body := busyBody) takes rfl, busyBody_write h1 h2 h3, throttleAgainst_exact]
    rfl
  · rw [exec_takes (body := srciBody) takes rfl, srciBody_write h]
  · rw [exec_takes (body := stlmBody) takes rfl, stlmBody_write h1 h2]
  · rw [exec_takes (body := intlBody) takes rfl, intlBody_write h]

/-- Settles O49: the settings are read as written, and a value above the top is clamped as it is loaded. -/
theorem trackingCommands : Obligations.TrackingCommands := by
  unfold Obligations.TrackingCommands
  refine fun tag s takes => ⟨fun mask t legal => ?_, fun c => ?_, fun mask g v hg hv => ?_⟩
  · rw [exec_takes (body := trksBody) takes rfl, trksBody_write mask legal]
    rfl
  · rw [exec_takes (body := trksBody) takes rfl, trksBody_read c]
    simp only [List.flatMap_cons, List.flatMap_nil, List.append_nil, List.append_assoc, gainTrackBytes]
  · rw [exec_takes (body := pedlBody) takes rfl, pedlBody_write mask hg hv, loadPedestals_eq mask hg]
    by_cases fits : v ≤ 65520
    · simp only [if_pos fits, if_neg (Nat.not_lt.2 fits), min_eq_left fits]
    · simp only [if_neg fits, if_pos (Nat.not_le.1 fits), min_eq_right (Nat.not_le.1 fits).le]

end Sys2Proof.Machine
end


section
/-!
Chapter 5: the commands of the Trim Engine, trml and trmr for a long trim (R84 to R87, R91) and those of manual trim mode (R92
to R97).
-/

namespace Sys2Proof.Machine

/-! ## One entry of a table, one gain of a pair -/

theorem getElem_put {n : Nat} {α : Type} (v : Vector α n) (i j : Fin n) (x : α) :
    (put v i x)[j] = if j = i then x else v[j] := by
  simp only [put, Fin.getElem_fin, Vector.getElem_set, Fin.ext_iff, eq_comm]

theorem PerGain.get_put {α : Type} (v : PerGain α) (g k : Gain) (x : α) :
    (v.put g x).get k = if k = g then x else v.get k := by
  cases g <;> cases k <;> rfl

section

variable {tag : Byte} {s : State}

/-! ## trml and trmr -/

/-- The gains a selector byte names (R84). -/
def selector (g : Nat) : PerGain Bool := ⟨decide (g ≠ 1), decide (g ≠ 0)⟩

theorem selector_get {g : Nat} (h : g ≤ 2) (k : Gain) : (selector g).get k = decide (g = 2 ∨ g = gainCode k) := by
  have selected : g = 0 ∨ g = 1 ∨ g = 2 := by omega
  rcases selected with rfl | rfl | rfl <;> cases k <;> rfl

theorem trmlBody_legal {mask : ChanMask} {g : Nat} (standby : s.acq.state = .standby) (locked : s.clk.state = .locked)
    (short : inLong s = false) (nonzero : mask ≠ 0) (hg : g ≤ 2)
    (on : ∀ c : Chan, mask.getLsbD c.val = true → s.front.recs[c].enable = true) :
    trmlBody { tag := tag, payload := maskBytes mask ++ u8 g } s =
      answer tag .ok (maskBytes mask ++ u8 g) (beginLong mask (selector g) s) := by
  have enabled : ¬(mask = 0 ∨ (namedChans mask).any (fun c => !s.front.recs[c].enable) = true) := by
    simp only [namedChans, named, List.any_eq_true, List.mem_filter, not_or, not_exists, not_and]
    exact ⟨nonzero, fun c hc => by simpa using on c hc.2⟩
  simp only [trmlBody, maskBytes, u8, u16, List.cons_append, List.nil_append, short, inStandby_true standby,
    if_neg (not_not.2 locked), readGainSel_byte g hg, readMask_bytes, if_neg enabled, toNat_byte g (by omega), answerOk]
  rfl

/-- The searches a long trim begins with. -/
def firstSearches (mask : ChanMask) (sel : PerGain Bool) (s : State) : Vector (PerGain (Option Search)) 16 :=
  tab fun c => ⟨startSearch s mask sel c .hg, startSearch s mask sel c .lg⟩

theorem firstSearches_get (mask : ChanMask) (sel : PerGain Bool) (s : State) (c : Chan) (g : Gain) :
    (firstSearches mask sel s)[c].get g = startSearch s mask sel c g := by
  rw [firstSearches, getElem_tab]
  cases g <;> rfl

theorem beginLong_trim (mask : ChanMask) (sel : PerGain Bool) (s : State) :
    (beginLong mask sel s).trim =
      { s.trim with engine := .long { round := 0, arrivals := 0, searches := firstSearches mask sel s } } := rfl

/-- The DACs of a channel at the beginning of a round (R85). -/
def trialDacs (searches : Vector (PerGain (Option Search)) 16) (round : Nat) (dacs : Vector (PerGain Nat) 16) (c : Chan) :
    PerGain Nat := ⟨trialDac searches[c].hg round dacs[c].hg, trialDac searches[c].lg round dacs[c].lg⟩

theorem trialDacs_get (searches : Vector (PerGain (Option Search)) 16) (round : Nat) (dacs : Vector (PerGain Nat) 16)
    (c : Chan) (g : Gain) :
    (trialDacs searches round dacs c).get g = trialDac (searches[c].get g) round (dacs[c].get g) := by
  cases g <;> rfl

theorem beginLong_dac (mask : ChanMask) (sel : PerGain Bool) (s : State) (c : Chan) (g : Gain) :
    (beginLong mask sel s).front.dacs[c].get g = trialDac (startSearch s mask sel c g) 0 (s.front.dacs[c].get g) :=
  calc (beginLong mask sel s).front.dacs[c].get g
    _ = (tab (trialDacs (firstSearches mask sel s) 0 s.front.dacs))[c].get g := rfl
    _ = (trialDacs (firstSearches mask sel s) 0 s.front.dacs c).get g := congrArg (fun v : PerGain Nat => v.get g)
        (getElem_tab (trialDacs (firstSearches mask sel s) 0 s.front.dacs) c)
    _ = trialDac (startSearch s mask sel c g) 0 (s.front.dacs[c].get g) := by rw [trialDacs_get, firstSearches_get]

/-- The first trial value: 128 for a first trim, the base plus 16 otherwise (R86, R87). -/
theorem beginSearch_trial (info : TrimInfo) (dac target h : Nat) :
    (beginSearch info dac target h).trial 0 = if info.first then 128 else min (dac - 16) 224 + 16 := by
  cases first : info.first <;> simp [Search.trial, Search.rounds, beginSearch, bandBase, first]

end

/-- Settles O50: the copies a long trim takes, one search for each selected channel-gain, and the results read. -/
theorem trimStartsAndReads : Obligations.TrimStartsAndReads := by
  unfold Obligations.TrimStartsAndReads
  refine fun tag s takes => ⟨fun mask g standby locked short nonzero hg on => ?_, fun mask => ?_⟩
  · refine ⟨_, { round := 0, arrivals := 0, searches := firstSearches mask (selector g) s },
      (exec_takes (body := trmlBody) takes rfl).trans
        (congrArg _ (trmlBody_legal standby locked short nonzero hg on)), rfl, rfl, rfl, rfl, rfl, rfl, fun c gn => ?_⟩
    show ite _ (_ ∧ (beginLong mask (selector g) s).front.dacs[c].get gn = _)
      (_ ∧ (beginLong mask (selector g) s).front.dacs[c].get gn = _)
    rw [firstSearches_get, beginLong_dac, startSearch, selector_get hg]
    by_cases part : mask.getLsbD c.val = true ∧ (g = 2 ∨ g = gainCode gn)
    · have selected : (named mask c && decide (g = 2 ∨ g = gainCode gn)) = true := by
        rw [named, part.1, decide_eq_true part.2]; rfl
      rw [if_pos part, if_pos selected]
      exact ⟨rfl, beginSearch_trial _ _ _ _⟩
    · have other : ¬(named mask c && decide (g = 2 ∨ g = gainCode gn)) = true := by
        rw [named, Bool.and_eq_true, decide_eq_true_eq]; exact part
      rw [if_neg part, if_neg other]
      exact ⟨rfl, rfl⟩
  · rw [exec_takes (body := trmrBody) takes rfl]
    simp only [trmrBody, maskBytes, u16, readMask_bytes, answerOk, trmrReply, trimResultBytes, List.flatMap_cons,
      List.flatMap_nil, List.append_nil, List.append_assoc]
    rfl

/-! ## Manual trim mode -/

section

variable {tag : Byte} {s : State}

theorem trenBody_enabled {c : Chan} (g : Gain) (idle : s.trim.engine = .idle) (standby : s.acq.state = .standby)
    (on : s.front.recs[c].enable = true) :
    trenBody { tag := tag, payload := u8 c.val ++ u8 (gainCode g) } s =
      answer tag .ok (u8 c.val ++ u8 (gainCode g) ++ u8 (s.front.dacs[c].get g) ++ u16 (s.ped.chans[c].gains.get g).p)
        (setManual { chan := c, gain := g, settle := 0, lastMean := 0, valid := false, measuring := none } s) := by
  have short : inLong s = false := by simp [inLong, idle]
  simp only [trenBody, u8, List.cons_append, List.nil_append, inStandby_true standby, short, readChan_byte, readGain_byte, on,
    answerOk]
  rfl

theorem trstBody_manual {m : ManualTrim} (manual : s.trim.engine = .manual m) {v : Nat} (hv : v ≤ 255) :
    trstBody { tag := tag, payload := u8 v } s =
      answer tag .ok (u8 v) (setManual { m with settle := 64, valid := false } (setDac m.chan m.gain v s)) := by
  simp only [trstBody, u8, manual, toNat_byte v hv, answerOk]

theorem trmsBody_manual {m : ManualTrim} (manual : s.trim.engine = .manual m) :
    trmsBody { tag := tag, payload := [] } s =
      if s.clk.state ≠ .locked then answer tag .badState [] s
      else (setManual { m with measuring := some { count := 0, sum := 0 } } s).mapCtl fun c =>
        { c with executing := .trms tag } := by
  simp only [trmsBody, manual, refuse]

/-- The pedestal that trex loads, where the last mean is valid (R97). -/
def loadMean (m : ManualTrim) (s : State) : State := if m.valid then setPed m.chan m.gain m.lastMean s else s

theorem trexBody_manual {m : ManualTrim} (manual : s.trim.engine = .manual m) :
    trexBody { tag := tag, payload := [] } s =
      answer tag .ok
        (u8 m.chan.val ++ u8 (gainCode m.gain) ++ u8 (s.front.dacs[m.chan].get m.gain)
          ++ u16 ((loadMean m (s.mapTrim fun u => { u with engine := .idle })).ped.chans[m.chan].gains.get m.gain).p
          ++ u8 (flagCode m.valid)) (loadMean m (s.mapTrim fun u => { u with engine := .idle })) := by
  simp only [trexBody, manual]
  rfl

theorem loadMean_only (m : ManualTrim) (s : State) : loadMean m s = { s with ped := (loadMean m s).ped } := by
  unfold loadMean
  split <;> rfl

theorem loadMean_gains (m : ManualTrim) (s : State) (c : Chan) (g : Gain) :
    (loadMean m s).ped.chans[c].settings = s.ped.chans[c].settings ∧
      (loadMean m s).ped.chans[c].gains.get g =
        if c = m.chan ∧ g = m.gain ∧ m.valid = true then { s.ped.chans[c].gains.get g with p := m.lastMean }
        else s.ped.chans[c].gains.get g := by
  unfold loadMean
  cases m.valid with
  | false => simp
  | true =>
    simp only [if_true, setPed, State.mapPed_ped, getElem_put, and_true]
    by_cases here : c = m.chan
    · subst here
      simp only [if_true, true_and, PerGain.get_put]
      refine ⟨rfl, ?_⟩
      by_cases same : g = m.gain
      · rw [if_pos same, if_pos same, same]
      · rw [if_neg same, if_neg same]
    · simp [here]

end

/-- Outside manual trim mode trst, trms and trex have no channel-gain to act on (R94, R95, R97). -/
theorem manual_commands_refused {tag : Byte} {s : State} (idle : PortIdle s) (outside : inManual s = false) (c : Instr)
    (h : (∃ v : Byte, c = .trst { tag := tag, payload := [v] }) ∨ c = .trms { tag := tag, payload := [] } ∨
      c = .trex { tag := tag, payload := [] }) : exec c s = .next (answer tag .badState [] s) := by
  unfold inManual at outside
  rcases h with ⟨v, rfl⟩ | rfl | rfl
  · rw [exec_always (body := trstBody) idle rfl, trstBody]
    cases engine : s.trim.engine <;> simp_all [refuse]
  · rw [exec_always (body := trmsBody) idle rfl, trmsBody]
    cases engine : s.trim.engine <;> simp_all [refuse]
  · rw [exec_always (body := trexBody) idle rfl, trexBody]
    cases engine : s.trim.engine <;> simp_all [refuse]

/-- Settles O51: each command of manual trim mode in it, and the three that need it outside. -/
theorem manualModeCommands : Obligations.ManualModeCommands := by
  unfold Obligations.ManualModeCommands
  refine fun tag s idle => ⟨fun c g engine standby on => ?_, fun m manual => ⟨fun v hv => ?_, fun locked => ?_,
    fun unlocked => ?_, ?_⟩, manual_commands_refused idle⟩
  · have takes : TakesRequests s := ⟨idle, by simp [inManual, engine]⟩
    rw [exec_takes (body := trenBody) takes rfl, trenBody_enabled g engine standby on]
    rfl
  · refine ⟨_, (exec_always (body := trstBody) idle rfl).trans (congrArg _ (trstBody_manual manual hv)), rfl, rfl,
      fun c g => ?_⟩
    show (put s.front.dacs m.chan (s.front.dacs[m.chan].put m.gain v))[c].get g = _
    rw [getElem_put]
    by_cases here : c = m.chan
    · subst here
      simp [PerGain.get_put]
    · simp [here]
  · rw [exec_always (body := trmsBody) idle rfl, trmsBody_manual manual, if_neg (not_not.2 locked)]
    rfl
  · rw [exec_always (body := trmsBody) idle rfl, trmsBody_manual manual, if_pos unlocked]
  · refine ⟨_, (exec_always (body := trexBody) idle rfl).trans (congrArg _ (trexBody_manual manual)), ?_, fun c g => ?_⟩
    · rw [loadMean_only]
      rfl
    · exact loadMean_gains m (s.mapTrim _) c g

end Sys2Proof.Machine
end


section
/-!
Chapters 6, 7 and 9: filt, the staged copy and its commit, lrds, and the commands of the slow integrator.
-/

namespace Sys2Proof.Machine

section

variable {tag : Byte} {s : State}

/-! ## filt (R99) -/

theorem filtBody_read (k : Fin 8) :
    filtBody { tag := tag, payload := u8 k.val } s = answer tag .ok
      (u8 k.val ++ u8 s.filt.sets[k].length ++ coefBytes s.filt.sets[k].a ++ coefBytes s.filt.sets[k].b) s := by
  simp only [filtBody, u8, readSet_byte, answerOk]

theorem filtBody_write (k : Fin 8) {a b : List (BitVec 16)} (least : 3 ≤ a.length) (most : a.length ≤ 16)
    (same : b.length = a.length) :
    filtBody { tag := tag, payload := u8 k.val ++ u8 a.length ++ coefBytes a ++ coefBytes b } s =
      if !inStandby s then answer tag .badState [] s
      else answer tag .ok (u8 k.val ++ u8 a.length)
        (s.mapFilt fun t => { t with sets := put t.sets k { a := a, b := b } }) := by
  have payload : u8 k.val ++ u8 a.length ++ coefBytes a ++ coefBytes b =
      BitVec.ofNat 8 k.val :: BitVec.ofNat 8 a.length :: coefBytes (a ++ b) := by
    rw [coefBytes_append]
    rfl
  have both : (a ++ b).length = 2 * a.length := by rw [List.length_append, same, Nat.two_mul]
  rw [payload, filtBody.eq_def]
  obtain ⟨x, rest, bytes⟩ : ∃ x rest, coefBytes (a ++ b) = x :: rest := by
    refine List.exists_cons_of_length_pos ?_
    rw [coefBytes_length]
    omega
  simp only [readSet_byte, toNat_byte a.length (by omega), inRange_eq least most, readCoefs_bytes, both, if_true,
    List.take_left', List.drop_left', refuse, answerOk]

/-! ## The staged copy (R129, R130) -/

theorem lclrBody_empty :
    lclrBody { tag := tag, payload := [] } s =
      if s.list.pending then answer tag .busy [] s else answer tag .ok (u8 0) (editStaged (fun _ => []) s) := rfl

theorem lappBody_legal {e : Entry} (legal : e.Legal) :
    lappBody { tag := tag, payload := entryBytes e } s =
      if s.list.pending then answer tag .busy [] s
      else if 32 ≤ stagedCount s then answer tag .full [] s
      else answer tag .ok (u8 (stagedCount s + 1) ++ u8 (stagedCount s)) (editStaged (fun l => l ++ [e]) s) := by
  simp only [lappBody, entryBytes, u8, u24, List.cons_append, List.nil_append, readEntry_bytes e legal]
  rfl

/-- With a commit pending an edit at an index is refused before its payload is read (R129). -/
theorem indexEdits_pending (e : Entry) (i : Nat) (pending : s.list.pending = true) :
    linsBody { tag := tag, payload := u8 i ++ entryBytes e } s = answer tag .busy [] s ∧
      lremBody { tag := tag, payload := u8 i } s = answer tag .busy [] s ∧
      lrepBody { tag := tag, payload := u8 i ++ entryBytes e } s = answer tag .busy [] s := by
  simp only [linsBody, lremBody, lrepBody, entryBytes, u8, u24, List.cons_append, List.nil_append, pending, if_true, refuse,
    and_self]

/-! ## lrds (R133) -/

theorem lrdsBody_read (act : Bool) {first count : Nat} (hf : first ≤ 32) (hc : count ≤ 16) :
    lrdsBody { tag := tag, payload := u8 (flagCode act) ++ u8 first ++ u8 count } s =
      if first + count ≤ (if act then s.list.active else s.list.staged).length then
        answer tag .ok
          (u8 (flagCode act) ++ u8 (if act then s.list.active else s.list.staged).length ++ u8 s.list.generation.toNat ++
            u8 (flagCode s.list.pending) ++ u8 first ++ u8 count ++
            (((if act then s.list.active else s.list.staged).drop first).take count).flatMap entryBytes) s
      else answer tag .badArg [] s := by
  simp only [lrdsBody, u8, List.cons_append, List.nil_append, readCopy_byte, toNat_byte first (by omega),
    toNat_byte count (by omega), inRange_eq (Nat.zero_le first) hf, inRange_eq (Nat.zero_le count) hc, answerOk, refuse]

/-! ## The slow integrator (R175, R179) -/

theorem intsBody_write {t : ScanSettings} (legal : t.Legal) :
    intsBody { tag := tag, payload := scanBytes t } s =
      if s.integ.scan ≠ .idle then answer tag .busy [] s
      else if s.clk.state ≠ .locked then answer tag .badState [] s
      else answer tag .ok (scanBytes t)
        (s.mapInteg fun i =>
          { i with startChan := t.startChan, endChan := t.endChan, mode := t.mode, gateLength := t.gateLength,
                   pass := 0, scan := settleOn t.startChan }) := by
  have payload : scanBytes t = [BitVec.ofNat 8 t.startChan.val, BitVec.ofNat 8 t.endChan.val, BitVec.ofNat 8 t.mode.code,
      BitVec.ofNat 8 (t.gateLength / 256), BitVec.ofNat 8 t.gateLength] := rfl
  rw [payload, intsBody]
  simp only [readScan_bytes t legal, refuse, answerOk, payload]

theorem Reading.markRead_eq (x : Reading) : x.markRead = if x.status = .new then { x with status := .read } else x := by
  unfold Reading.markRead
  cases status : x.status <;> simp

theorem markRead_named (m : ChanMask) (c : Chan) (x : Reading) :
    (if named m c then x.markRead else x) =
      if m.getLsbD c.val = true ∧ x.status = .new then { x with status := .read } else x := by
  rw [named, Reading.markRead_eq]
  exact (ite_and ..).symm

theorem intrBody_mask (mask : ChanMask) :
    intrBody { tag := tag, payload := maskBytes mask } s = readReadings { tag := tag, payload := maskBytes mask } mask s := by
  simp only [intrBody, maskBytes, u16, readMask_bytes]

end

/-- Settles O52: a set's write has its bytes read back as the two lists; nothing else of the table is written. -/
theorem filtWritesAndReadsSet : Obligations.FiltWritesAndReadsSet := by
  refine fun tag s k takes => ⟨fun a b least most same => ⟨fun standby => ?_, fun other => ?_⟩, ?_⟩
  · rw [exec_takes (body := filtBody) takes rfl, filtBody_write k least most same, inStandby_true standby]
    rfl
  · rw [exec_takes (body := filtBody) takes rfl, filtBody_write k least most same, inStandby_false other]
    rfl
  · exact (exec_takes (body := filtBody) takes rfl).trans (congrArg _ (filtBody_read k))

/-- Settles O53: the pending flag is looked at before any edit of the staged copy. -/
theorem stagedAppends : Obligations.StagedAppends := by
  refine fun tag s e i takes legal byte => ⟨fun free => ⟨?_, ?_⟩, fun pending c edit => ?_⟩
  · rw [exec_takes (body := lclrBody) takes rfl, lclrBody_empty, free]
    rfl
  · rw [exec_takes (body := lappBody) takes rfl, lappBody_legal legal, free, if_neg Bool.false_ne_true]
    rcases Nat.lt_or_ge (stagedCount s) 32 with room | full
    · rw [if_neg (Nat.not_le.2 room)]
      exact congrArg _ (if_pos room).symm
    · rw [if_pos full]
      exact congrArg _ (if_neg (Nat.not_lt.2 full)).symm
  · obtain ⟨lins, lrem, lrep⟩ := indexEdits_pending (tag := tag) e i pending
    obtain rfl | rfl | rfl | rfl | rfl := edit
    · rw [exec_takes (body := lclrBody) takes rfl, lclrBody_empty, if_pos pending]
    · rw [exec_takes (body := lappBody) takes rfl, lappBody_legal legal, if_pos pending]
    · rw [exec_takes (body := linsBody) takes rfl, lins]
    · rw [exec_takes (body := lremBody) takes rfl, lrem]
    · rw [exec_takes (body := lrepBody) takes rfl, lrep]

/-- Settles O55: in STANDBY a commit is applied at once and set pending elsewhere; the reply is formed afterwards. -/
theorem commitAndListReading : Obligations.CommitAndListReading := by
  refine fun tag s takes => ⟨fun standby => ?_, fun other => ?_, fun p some => ?_, fun act first count hf hc => ?_⟩
  · rw [exec_takes (body := lcomBody) takes rfl, lcomBody, if_pos (inStandby_true standby)]
    rfl
  · rw [exec_takes (body := lcomBody) takes rfl, lcomBody, inStandby_false other]
    rfl
  · rw [exec_takes (body := lcomBody) takes rfl]
    cases p with
    | nil => exact absurd rfl some
    | cons b rest => rfl
  · exact (exec_takes (body := lrdsBody) takes rfl).trans (congrArg _ (lrdsBody_read act hf hc))

/-- Settles O57: ints checks scan and clock before its settings, intx tells the channel it leaves, and intr marks what it read. -/
theorem scanCommands : Obligations.ScanCommands := by
  refine fun tag s takes => ⟨fun t legal => ?_, ?_, fun mask => ?_⟩
  · exact (exec_takes (body := intsBody) takes rfl).trans (congrArg _ (intsBody_write legal))
  · rw [exec_takes (body := intxBody) takes rfl]
    cases at_ : s.integ.scan <;> simp only [intxBody, at_] <;> rfl
  · rw [exec_takes (body := intrBody) takes rfl, intrBody_mask, readReadings]
    simp only [markRead_named]
    rfl

end Sys2Proof.Machine
end


section
/-!
Chapter 10: cclr, cmap, cond and cntr on the Condition Table.
-/

namespace Sys2Proof.Machine

section

variable {tag : Byte} {s : State}

/-- A change of the table depends on the table it results in alone (R184). -/
theorem changeConds_table (f : CondTable → CondTable) (s : State) :
    changeConds f s = changeConds (fun _ => (changeConds f s).cond) s := by
  rw [changeConds_cond]
  rfl

theorem changeConds_ctl (f : CondTable → CondTable) (s : State) : (changeConds f s).ctl = s.ctl := by
  obtain ⟨_, _, _, _, only⟩ := changeConds_only f s
  rw [only]

/-- Of the Control Port a change of the table leaves everything, so that giving the port back gives the change. -/
theorem changeConds_withPort (f : CondTable → CondTable) (s : State) :
    { changeConds f s with ctl := s.ctl } = changeConds f s := by
  rw [← changeConds_ctl f s]

/-! ## cclr (R186) -/

theorem CondTable.clearNamed_counters (m : Nat) (t : CondTable) : (t.clearNamed m).counters = t.counters := by
  simp only [CondTable.clearNamed]

/-- The part after a cclr of a mask, before the reply (R186, R187). -/
def cclrDone (tag : Byte) (m : Nat) (s : State) : State :=
  { changeConds (CondTable.clearNamed m) s with
    ctl := { s.ctl with executing := .cclr tag (Config.sameMoment s.ctl.sent.length) } }

theorem cclrDone_cond (tag : Byte) (m : Nat) (s : State) : (cclrDone tag m s).cond = s.cond.clearNamed m :=
  changeConds_cond (CondTable.clearNamed m) s

theorem cclrDone_counters (tag : Byte) (m : Nat) (s : State) :
    (cclrDone tag m s).cond.counters = s.cond.counters :=
  (congrArg CondTable.counters (cclrDone_cond tag m s)).trans (CondTable.clearNamed_counters m s.cond)

theorem cclrDone_change (tag : Byte) (m : Nat) (s : State) :
    { cclrDone tag m s with ctl := s.ctl } = changeConds (fun _ => (cclrDone tag m s).cond) s :=
  calc { cclrDone tag m s with ctl := s.ctl }
    _ = { changeConds (CondTable.clearNamed m) s with ctl := s.ctl } := rfl
    _ = changeConds (CondTable.clearNamed m) s := changeConds_withPort (CondTable.clearNamed m) s
    _ = changeConds (fun _ => (cclrDone tag m s).cond) s := changeConds_table (CondTable.clearNamed m) s

theorem cclrBody_mask {m : BitVec 32} (legal : m.toNat < 2 ^ 25) :
    cclrBody { tag := tag, payload := u32 m.toNat } s = cclrDone tag m.toNat s := by
  simp only [cclrBody, u32, be32_bytes m.toNat m.isLt, if_neg (Nat.not_le.2 legal), State.mapCtl, changeConds_ctl, cclrDone]

theorem cclrBody_above {m : BitVec 32} (above : 2 ^ 25 ≤ m.toNat) :
    cclrBody { tag := tag, payload := u32 m.toNat } s = answer tag .badArg [] s := by
  simp only [cclrBody, u32, be32_bytes m.toNat m.isLt, if_pos above, refuse]

theorem cclrBody_length {p : List Byte} (other : p.length ≠ 4) :
    cclrBody { tag := tag, payload := p } s = answer tag .badLen [] s := by
  rw [cclrBody]
  split
  · next bytes => exact absurd (congrArg List.length bytes) other
  · rfl

theorem CondTable.clearNamed_rec (m : BitVec 32) (t : CondTable) (i : Fin 25) :
    (t.clearNamed m.toNat).recs[i] =
      if m.getLsbD i.val then { t.recs[i] with latch := false, count := 0, first := none } else t.recs[i] :=
  getElem_tab (fun i => if m.toNat.testBit i.val then t.recs[i].clear else t.recs[i]) i

theorem cclrDone_rec (tag : Byte) (m : BitVec 32) (s : State) (i : Fin 25) :
    (cclrDone tag m.toNat s).cond.recs[i] =
      if m.getLsbD i.val then { s.cond.recs[i] with latch := false, count := 0, first := none } else s.cond.recs[i] :=
  (congrArg (fun t : CondTable => t.recs[i]) (cclrDone_cond tag m.toNat s)).trans (CondTable.clearNamed_rec m s.cond i)

/-- The first occurrence after a clear is the only one the record holds (R182, R187). -/
theorem cclrDone_occur (tag : Byte) {m : BitVec 32} (s : State) {c : Cond} (ev : Option EventNum)
    (isNamed : m.getLsbD c.num.val = true) :
    (occur c ev (cclrDone tag m.toNat s)).cond.recs[c.num] =
      { s.cond.recs[c.num] with latch := true, count := 1, first := ev } := by
  have held := (cclrDone_rec tag m s c.num).trans (if_pos isNamed)
  rw [occur_cond, CondTable.occur_rec, held]
  rfl

end

/-- Settles O58: the named records alone are cleared, and the reply waits until the events of the moment have come. -/
theorem cclrClearsNamed : Obligations.CclrClearsNamed := by
  refine fun tag s takes => ⟨fun m legal => ?_, fun m above => ?_, fun p other => ?_⟩
  · exact ⟨cclrDone tag m.toNat s, Config.sameMoment s.ctl.sent.length,
      (exec_takes (body := cclrBody) takes rfl).trans (congrArg _ (cclrBody_mask legal)), cclrDone_change tag m.toNat s, rfl,
      cclrDone_rec tag m s, cclrDone_counters tag m.toNat s, fun c ev isNamed => cclrDone_occur tag s ev isNamed⟩
  · exact (exec_takes (body := cclrBody) takes rfl).trans (congrArg _ (cclrBody_above above))
  · exact (exec_takes (body := cclrBody) takes rfl).trans (congrArg _ (cclrBody_length other))

section

variable {tag : Byte} {s : State}

/-! ## cmap (R185) -/

/-- The table with one condition given a class. -/
def CondTable.classify (n : Fin 25) (k : CondClass) (t : CondTable) : CondTable :=
  { t with recs := put t.recs n { t.recs[n] with cls := k } }

theorem cmapBody_write (n : Fin 25) (k : CondClass) :
    cmapBody { tag := tag, payload := u8 n.val ++ u8 k.code } s =
      answer tag .ok (u8 n.val ++ u8 k.code) (changeConds (CondTable.classify n k) s) := by
  simp only [cmapBody, u8, List.cons_append, List.nil_append, readCond_byte, readClass_byte, answerOk]
  rfl

theorem CondTable.classify_rec (n : Fin 25) (k : CondClass) (t : CondTable) :
    (t.classify n k).recs[n] = { t.recs[n] with cls := k } := by simp [CondTable.classify, put]

theorem CondTable.classify_rec_other {n i : Fin 25} (k : CondClass) (t : CondTable) (h : i ≠ n) :
    (t.classify n k).recs[i] = t.recs[i] := by
  simp only [CondTable.classify, put, Fin.getElem_fin]
  exact Vector.getElem_set_ne _ _ (by omega)

/-! ## cond and cntr (R188, R190) -/

theorem condBody_one (n : Fin 25) :
    condBody { tag := tag, payload := u8 n.val } s =
      { answer tag .ok (condRecBytes (Config.absentEvent (s.freeIndex + n.val)) n s.cond.recs[n] ++ u32 s.cond.latched) s with
        freeIndex := s.freeIndex + 25 } := by
  simp only [condBody, u8, readCond_byte]
  rfl

/-- The mask of latched conditions as a word (R188). -/
theorem latchedWord (t : CondTable) :
    ∃ w : BitVec 32, w.toNat = t.latched ∧ w.toNat < 2 ^ 25 ∧ ∀ i : Fin 25, w.getLsbD i.val = t.recs[i].latch := by
  obtain ⟨below, bits⟩ := latched_bits t
  have whole : (BitVec.ofNat 32 t.latched).toNat = t.latched := by
    rw [BitVec.toNat_ofNat]
    exact Nat.mod_eq_of_lt (by omega)
  exact ⟨_, whole, by rwa [whole], fun i => by rw [BitVec.getLsbD, whole, bits]⟩

end

/-- Settles O59: cmap changes one class, cond shows one record with the mask, and cntr reads before it clears. -/
theorem conditionTableCommands : Obligations.ConditionTableCommands := by
  refine fun tag s takes => ⟨fun n k => ?_, fun n => ?_, ?_, ?_⟩
  · have table : (answer tag .ok (u8 n.val ++ u8 k.code) (changeConds (CondTable.classify n k) s)).cond =
        s.cond.classify n k := changeConds_cond _ s
    refine ⟨_, (exec_takes (body := cmapBody) takes rfl).trans (congrArg _ (cmapBody_write n k)), ?_, ?_, ?_,
      fun i other => ?_, ?_⟩
    · exact (changeConds_withPort _ s).trans (changeConds_table _ s)
    · exact answer_replies (changeConds_ctl _ s)
    · rw [table, CondTable.classify_rec]
    · rw [table, CondTable.classify_rec_other k _ other]
    · rw [table]
      rfl
  · obtain ⟨latched, whole, below, bits⟩ := latchedWord s.cond
    refine ⟨Config.absentEvent (s.freeIndex + n.val), latched, ?_, below, bits⟩
    rw [exec_takes (body := condBody) takes rfl, condBody_one, whole]
    rfl
  · rw [exec_takes (body := cntrBody) takes rfl]
    rfl
  · rw [exec_takes (body := cntrBody) takes rfl]
    rfl

end Sys2Proof.Machine
end


section
/-!
Chapters 8 and 10: occurrences and class 3, the units of the readout link, and the end of draining.
-/

namespace Sys2Proof.Machine

/-! ## Occurrences and class 3 (R182, R184) -/

theorem enterSuspended_acq (s : State) : (enterSuspended s).acq = { s.acq with state := .suspended } := by
  rw [enterSuspended, throttleOn_acq]
  rfl

theorem enterSuspended_throttle (s : State) : (enterSuspended s).aq.throttle = true := by
  rw [enterSuspended, throttleOn_exact]
  rfl

/-- The state a suspension leads to when class 3 clears (R46). -/
def resumed (s : State) : AcqState := if s.acq.startL ≤ s.pipe.fill then .running else .priming

theorem resumed_ne_suspended (s : State) : resumed s ≠ .suspended := by
  unfold resumed
  split <;> simp

theorem onClass3Cleared_suspended {s : State} (h : s.acq.state = .suspended) :
    onClass3Cleared s = throttleRelax (setAcq (resumed s) s) := by
  simp only [onClass3Cleared, h]
  rfl

end Sys2Proof.Machine

namespace Sys2Proof.Machine

/-- Settles O34: the record of the condition, the others, and the counters. -/
theorem occurrenceLatchesCountsAndRecords : Obligations.OccurrenceLatchesCountsAndRecords :=
  fun c ev s => ⟨occur_rec c ev s, fun i other => occur_rec_other c ev s i other, occur_counters c ev s⟩

/-- Settles O35: by whether class 3 is raised before and after the change. -/
theorem class3MovesAcquisition : Obligations.Class3MovesAcquisition := by
  refine fun g s => ⟨changeConds_cond g s, fun before after runs => ?_, fun before after suspended => ?_, ?_⟩
  · have raised : onClass3Raised (s.mapCond g) = enterSuspended (s.mapCond g) := by
      rcases runs with h | h <;> simp only [onClass3Raised, State.mapCond_acq, h]
    rw [changeConds_raises g s before after, raised, enterSuspended_acq]
    exact ⟨rfl, enterSuspended_throttle _⟩
  · rw [changeConds_clears g s before after, onClass3Cleared_suspended (s := s.mapCond g) suspended,
      throttleRelax_exact (resumed_ne_suspended (s.mapCond g))]
    exact ⟨rfl, rfl⟩
  · rintro (same | standby | draining)
    · rw [changeConds_same g s same.symm]
      rfl
    · rw [changeConds_rested g (.inl standby)]
      rfl
    · rw [changeConds_rested g (.inr draining)]
      rfl

/-! ## rset and the readout link (R49) -/

theorem rsetDue_none {s : State} (h : ∀ tag : Byte, s.ctl.executing ≠ .rset tag false) : rsetDue s = false := by
  unfold rsetDue
  split
  · next tag awaits executing =>
    cases awaits
    · exact absurd executing (h tag)
    · simp
  all_goals rfl

theorem rsetDue_congr {s t : State} (executing : t.ctl.executing = s.ctl.executing) (begun : t.tx.begun = s.tx.begun) :
    rsetDue t = rsetDue s := by
  unfold rsetDue
  rw [executing, begun]

theorem rsetDue_begun {s : State} {n : Nat} (begun : s.tx.begun = some n) : rsetDue s = false := by
  unfold rsetDue
  split
  · rw [begun]; rfl
  all_goals rfl

/-! ## Frame boundaries and blocks (R152 to R155) -/

theorem busyOffSent_other {x : Execution} (h : ∀ tag : Byte, x ≠ .rset tag true) : x.busyOffSent = x := by
  cases x with
  | rset tag awaits =>
    cases awaits
    · rfl
    · exact absurd rfl (h tag)
  | _ => rfl

theorem frameBoundary_inside {s : State} {n : Nat} (begun : s.tx.begun = some n) : frameBoundary s = s := by
  simp only [frameBoundary, begun]

theorem frameBoundary_throttle {s : State} {f : ThrottleFrame} (free : s.tx.begun = none)
    (frame : s.tx.waitingFrame = some f) : frameBoundary s = sendThrottle f s := by
  simp only [frameBoundary, free, frame]

theorem frameBoundary_block {s : State} (free : s.tx.begun = none) (none : s.tx.waitingFrame = none)
    (credit : 1 ≤ s.tx.credits) (word : s.tx.buffer ≠ []) : frameBoundary s = beginBlock s := by
  have words : 0 < unbegun s.tx := by simp [unbegun, free, List.length_pos_iff.2 word]
  simp only [frameBoundary, free, none]
  exact if_pos ⟨credit, words⟩

theorem frameBoundary_idle {s : State} (free : s.tx.begun = none) (none : s.tx.waitingFrame = none)
    (nothing : s.tx.credits = 0 ∨ s.tx.buffer = []) : frameBoundary s = sendIdle s := by
  simp only [frameBoundary, free, none]
  refine if_neg ?_
  rcases nothing with h | h <;> simp [unbegun, h]

theorem sendThrottle_exact {s : State} (f : ThrottleFrame) (other : ∀ tag : Byte, s.ctl.executing ≠ .rset tag true) :
    sendThrottle f s =
      { s with tx := { s.tx with waitingFrame := none, sent := s.tx.sent ++ [f.word] } } := by
  simp only [sendThrottle, State.mapCtl, State.mapTx, busyOffSent_other other]

theorem completeBlock_eq {s : State} {n : Nat} (begun : s.tx.begun = some n) :
    completeBlock s = drainTest (settleBuilder (releaseBlock n s)) := by
  simp only [completeBlock, begun]

/-- Outside DRAINING there is no draining to end (R48). -/
theorem drainTest_other {s : State} (h : s.acq.state ≠ .draining) : drainTest s = s := if_neg fun both => h both.1

theorem drained_words {s : State} (h : s.tx.buffer ≠ []) : drained s = false :=
  Bool.eq_false_iff.2 fun done => h ((drained_iff s).1 done).2.2

theorem drained_building {s : State} (h : s.builder.state ≠ .idle) : drained s = false :=
  Bool.eq_false_iff.2 fun done => h ((drained_iff s).1 done).2.1

end Sys2Proof.Machine

namespace Sys2Proof.Machine

/-- Settles O30: the three kinds of unit at a boundary, and a block completion that nothing follows from. -/
theorem transmitterUnits : Obligations.TransmitterUnits := by
  refine ⟨?_, ?_, ?_⟩
  · intro s0 s free quiet
    refine ⟨fun f frame other => ?_, fun none credit word => ?_, fun none nothing => ?_⟩
    all_goals show Host.Outcome.next (completeRset (frameBoundary s)) = _
    · rw [frameBoundary_throttle free frame, 
        completeRset_notDue ((rsetDue_congr (t := sendThrottle f s) (busyOffSent_other other) rfl).trans quiet),
        sendThrottle_exact f other]
      cases f <;> rfl
    · rw [frameBoundary_block free none credit word, completeRset_notDue (rsetDue_begun rfl)]
      rfl
    · rw [frameBoundary_idle free none nothing, completeRset_notDue ((rsetDue_congr (t := sendIdle s) rfl rfl).trans quiet)]
      rfl
  · intro s0 n s begun
    show Host.Outcome.next (completeRset (frameBoundary s)) = _
    rw [frameBoundary_inside begun, completeRset_notDue (rsetDue_begun begun)]
  · intro s0 n s other begun still
    show Host.Outcome.next (completeRset (completeBlock s)) = _
    have stays : completeBlock s = releaseBlock n s := by
      rw [completeBlock_eq begun]
      rcases still with ⟨b, building, flying⟩ | ⟨idle, records, left⟩ | ⟨b, ready, long⟩
      · rw [settleBuilder_building (releaseBlock n s) b building flying,
          drainTest_owing (drained_building (by rw [show (releaseBlock n s).builder.state = _ from building]; simp))]
      · rw [settleBuilder_idle (releaseBlock n s) idle records]
        rcases left with notDraining | words
        · exact drainTest_other notDraining
        · refine drainTest_owing (drained_words fun empty => ?_)
          exact absurd (List.drop_eq_nil_iff.1 empty) (Nat.not_le.2 words)
      · rw [settleBuilder_ready (releaseBlock n s) b ready (decide_eq_false (Nat.not_le.2 long)),
          drainTest_owing (drained_building (by rw [show (releaseBlock n s).builder.state = _ from ready]; simp))]
    rw [stays, completeRset_notDue (rsetDue_none (s := releaseBlock n s) other)]
    rfl

/-- Settles O31: with nothing left the test for the end of draining has the part enter STANDBY. -/
theorem drainCompletes : Obligations.DrainCompletes := by
  intro s0 s other draining records idle c due
  have effect : ∃ u, exec c s0 = .next (enterStandby u) ∧ u.tx.buffer = [] ∧ u.acq = s.acq ∧ u.list = s.list ∧
      u.cond = s.cond ∧ u.pipe = s.pipe ∧ u.aq = s.aq := by
    rcases due with ⟨rfl, empty⟩ | ⟨rfl, n, begun, last⟩
    · refine ⟨s, ?_, empty, rfl, rfl, rfl, rfl, rfl⟩
      exact congrArg _ (drainTest_done draining ((drained_iff s).2 ⟨records, idle, empty⟩))
    · have empty : (releaseBlock n s).tx.buffer = [] := List.drop_eq_nil_iff.2 last
      refine ⟨releaseBlock n s, ?_, empty, rfl, rfl, rfl, rfl, rfl⟩
      show Host.Outcome.next (completeRset (completeBlock s)) = _
      rw [completeBlock_eq begun, settleBuilder_idle (releaseBlock n s) idle records,
        drainTest_done (s := releaseBlock n s) draining ((drained_iff _).2 ⟨records, idle, empty⟩), enterStandby_exact,
        completeRset_notDue]
      exact rsetDue_none (s := { releaseBlock n s with .. }) other
  obtain ⟨u, next, empty, acq, list, cond, pipe, aq⟩ := effect
  refine ⟨_, next, ?_⟩
  rw [enterStandby_exact]
  refine ⟨congrArg (fun a : Acquisition => { a with state := .standby }) acq, empty, ?_, fun pending => ?_,
    fun settled => ?_, pipe, congrArg AcceptQueue.gap aq⟩
  · exact congrArg ReadoutList.entered list
  · show (if u.list.pending then u.cond.occur .listSwapStop none else u.cond).recs[Cond.listSwapStop.num].latch = _ ∧
      (if u.list.pending then u.cond.occur .listSwapStop none else u.cond).recs[Cond.listSwapStop.num].count = _
    rw [list, if_pos pending, CondTable.occur_rec, cond]
    exact ⟨rfl, rfl⟩
  · show (if u.list.pending then u.cond.occur .listSwapStop none else u.cond) = _
    rw [list, if_neg (by simp [settled]), cond]

end Sys2Proof.Machine
end


section
/-!
The timing-link frame, block by block. What the Timing Receiver makes of its own block is a function of that block (`received`);
what the things a frame brings about leave is said once for all of them (`FrameKept`, `Calm`), and for each of them which
records of the Condition Table it can move (`CondsOnly`).
-/

namespace Sys2Proof.Machine

section

variable {s t u : State}

theorem OnlyConditions.timing (h : OnlyConditions s t) : t.timing = s.timing := by obtain ⟨_, _, _, _, rfl⟩ := h; rfl
theorem OnlyConditions.clk (h : OnlyConditions s t) : t.clk = s.clk := by obtain ⟨_, _, _, _, rfl⟩ := h; rfl
theorem OnlyConditions.inj (h : OnlyConditions s t) : t.inj = s.inj := by obtain ⟨_, _, _, _, rfl⟩ := h; rfl
theorem OnlyConditions.integ (h : OnlyConditions s t) : t.integ = s.integ := by obtain ⟨_, _, _, _, rfl⟩ := h; rfl
theorem OnlyConditions.ctl (h : OnlyConditions s t) : t.ctl = s.ctl := by obtain ⟨_, _, _, _, rfl⟩ := h; rfl
theorem OnlyConditions.ped (h : OnlyConditions s t) : t.ped = s.ped := by obtain ⟨_, _, _, _, rfl⟩ := h; rfl
theorem OnlyConditions.list (h : OnlyConditions s t) : t.list = s.list := by obtain ⟨_, _, _, _, rfl⟩ := h; rfl
theorem OnlyConditions.filt (h : OnlyConditions s t) : t.filt = s.filt := by obtain ⟨_, _, _, _, rfl⟩ := h; rfl
theorem OnlyConditions.index (h : OnlyConditions s t) : t.freeIndex = s.freeIndex := by obtain ⟨_, _, _, _, rfl⟩ := h; rfl
theorem OnlyConditions.acq (h : OnlyConditions s t) : t.acq = { s.acq with state := t.acq.state } := by
  obtain ⟨_, _, _, _, rfl⟩ := h; rfl

end

/-! ## The Timing Receiver's own block (R22 to R33) -/

/-- Entry into SEEKING (R24, R29). -/
def Timing.seeks (t : Timing) : Timing :=
  { t with link := .seeking, candidate := t.lastTaken, runCount := 0, aligned := false }

/-- The first frame of a present crossing clock (R23). -/
def Timing.appears (t : Timing) : Timing := if t.link ≠ .noSignal then t else t.seeks

/-- A frame taken at the alignment of the link (R24, R25). -/
def Timing.takes (good : Bool) (t : Timing) : Timing :=
  match t.link, good with
  | .noSignal, _ => { t with lastTaken := t.candidate }
  | .seeking, true =>
    if 64 ≤ t.runCount + 1 then { t with lastTaken := t.candidate, runCount := 64, link := .locked, failCount := 0 }
    else { t with lastTaken := t.candidate, runCount := t.runCount + 1 }
  | .seeking, false => { t with lastTaken := t.candidate, runCount := 0, candidate := t.candidate + 1 }
  | .locked, true => { t with lastTaken := t.candidate, failCount := 0 }
  | .locked, false =>
    if 8 ≤ t.failCount + 1 then
      { t with lastTaken := t.candidate, failCount := t.failCount + 1, link := .seeking, runCount := 0, aligned := false }
    else { t with lastTaken := t.candidate, failCount := t.failCount + 1 }

/-- The advance of the crossing (R27, R28). -/
def Timing.advance (t : Timing) : Timing :=
  { t with serial := t.serial + 1, counter := if t.counter + 1 < t.turnLength then t.counter + 1 else 0 }

/-- What the fast commands and the quiet range make of an advanced crossing (R26, R29, R30, R32). -/
def Timing.commanded (fc : FastCommands) (t : Timing) : Timing :=
  let t1 : Timing := if fc.turnmark then { t with counter := 0, aligned := true } else t
  let t2 : Timing :=
    { t1 with event := if fc.accept then (if fc.evclear then 0 else t1.event) + 1 else if fc.evclear then 0 else t1.event }
  { t2 with quiet := t2.aligned && inQuiet t2 }

/-- The Timing Receiver's block after a frame. -/
def Timing.received (f : Byte) (t : Timing) : Timing :=
  ((t.appears.takes (frameGood f)).advance).commanded (fastCommands t.link f)

theorem clockAppears_timing (s : State) : (clockAppears s).timing = s.timing.appears := by
  unfold clockAppears Timing.appears clockPresent
  by_cases present : s.timing.link ≠ .noSignal
  · rw [decide_eq_true present, if_pos present, if_pos rfl]
  · rw [decide_eq_false present, if_neg present, if_neg Bool.false_ne_true]
    rfl

theorem badFrame_timing (s : State) :
    (badFrame s).timing = if 8 ≤ s.timing.failCount + 1 then { s.timing with failCount := s.timing.failCount + 1 }.seeks
      else { s.timing with failCount := s.timing.failCount + 1 } := by
  have counted : (occur .tlCheck none (s.mapTiming fun t => { t with failCount := t.failCount + 1 })).timing =
      { s.timing with failCount := s.timing.failCount + 1 } := (occur_only _ _ _).timing
  unfold badFrame
  simp only [counted]
  by_cases eighth : 8 ≤ s.timing.failCount + 1
  · rw [if_pos eighth, if_pos eighth, (occur_only _ _ _).timing, enterSeeking, State.mapTiming_timing, counted]
    rfl
  · rw [if_neg eighth, if_neg eighth, counted]

theorem takeFrame_timing (good : Bool) (s : State) : (takeFrame good s).timing = s.timing.takes good := by
  cases link : s.timing.link with
  | noSignal => simp only [takeFrame, Timing.takes, link, State.mapTiming_timing]
  | seeking =>
    cases good <;>
      simp only [takeFrame, Timing.takes, link, State.mapTiming_timing, seekFrame, if_true, Bool.false_eq_true, if_false]
  | locked =>
    cases good <;>
      simp only [takeFrame, Timing.takes, link, State.mapTiming_timing, badFrame_timing, Timing.seeks, if_true,
        Bool.false_eq_true, if_false]

theorem turnmark_timing (s : State) : (turnmark s).timing = { s.timing with counter := 0, aligned := true } :=
  (occurIf_only _ _ _ _).timing

/-- What the fast commands of a frame do at the Timing Receiver (R26). -/
def commandFrame (fc : FastCommands) (s : State) : State :=
  setQuiet ((if fc.turnmark then turnmark s else s).mapTiming fun t =>
    { t with event := if fc.accept then (if fc.evclear then 0 else t.event) + 1 else if fc.evclear then 0 else t.event })

theorem receiverFrame_stages (f : Byte) (s : State) :
    receiverFrame f s =
      commandFrame (fastCommands s.timing.link f) (advanceCrossing (takeFrame (frameGood f) (clockAppears s))) := rfl

theorem commandFrame_timing (fc : FastCommands) (s : State) : (commandFrame fc s).timing = s.timing.commanded fc := by
  have marked : (if fc.turnmark then turnmark s else s).timing =
      if fc.turnmark then { s.timing with counter := 0, aligned := true } else s.timing := by
    split
    · exact turnmark_timing s
    · rfl
  simp only [commandFrame, setQuiet, State.mapTiming_timing, marked, Timing.commanded]

theorem receiverFrame_timing (f : Byte) (s : State) : (receiverFrame f s).timing = s.timing.received f := by
  have advanced : (advanceCrossing (takeFrame (frameGood f) (clockAppears s))).timing =
      (s.timing.appears.takes (frameGood f)).advance := by
    rw [← clockAppears_timing, ← takeFrame_timing]
    rfl
  rw [Timing.received, ← advanced]
  exact commandFrame_timing _ _

/-! ## What the frame keeps -/

/-- The parts of the state that no thing a frame brings about moves. -/
structure FrameKept (s t : State) : Prop where
  timing : t.timing = s.timing
  front : t.front = s.front
  ped : t.ped = s.ped
  trim : t.trim = s.trim
  filt : t.filt = s.filt
  ctl : t.ctl = s.ctl
  acq : t.acq = { s.acq with state := t.acq.state }
  w : t.pipe.w = s.pipe.w
  fill : t.pipe.fill = s.pipe.fill
  sPer : t.clk.s = s.clk.s
  credits : t.tx.credits = s.tx.credits
  begun : t.tx.begun = s.tx.begun
  stallLimit : t.tx.stallLimit = s.tx.stallLimit

/-- Besides, what an accept alone moves: the queue but for the throttle, the readout list, the builder and the words of the
output buffer. -/
structure Calm (s t : State) : Prop extends FrameKept s t where
  aq : t.aq = { s.aq with throttle := t.aq.throttle }
  list : t.list = s.list
  builder : t.builder = s.builder
  buffer : t.tx.buffer = s.tx.buffer

theorem FrameKept.refl (s : State) : FrameKept s s := ⟨rfl, rfl, rfl, rfl, rfl, rfl, rfl, rfl, rfl, rfl, rfl, rfl, rfl⟩

theorem FrameKept.trans {s t u : State} (h : FrameKept s t) (k : FrameKept t u) : FrameKept s u where
  timing := k.timing.trans h.timing
  front := k.front.trans h.front
  ped := k.ped.trans h.ped
  trim := k.trim.trans h.trim
  filt := k.filt.trans h.filt
  ctl := k.ctl.trans h.ctl
  acq := by rw [k.acq, h.acq]
  w := k.w.trans h.w
  fill := k.fill.trans h.fill
  sPer := k.sPer.trans h.sPer
  credits := k.credits.trans h.credits
  begun := k.begun.trans h.begun
  stallLimit := k.stallLimit.trans h.stallLimit

/-- The blocks that the things besides an accept can move. -/
theorem Calm.moves (s : State) (lock : ClockState) (n : Nat) (integ : Integrator) (inj : Injector)
    (chans : Vector ChanPipe 16) (timer : Nat) (mark : Bool) (cond : CondTable) :
    Calm s { s with
      clk := { s.clk with state := lock, lockCount := n }
      integ := integ
      inj := inj
      pipe := { s.pipe with chans := chans }
      tx := { s.tx with stallTimer := timer, stallMark := mark }
      cond := cond } :=
  ⟨⟨rfl, rfl, rfl, rfl, rfl, rfl, rfl, rfl, rfl, rfl, rfl, rfl, rfl⟩, rfl, rfl, rfl, rfl⟩

theorem Calm.refl (s : State) : Calm s s := .moves s _ _ _ _ _ _ _ _

theorem Calm.trans {s t u : State} (h : Calm s t) (k : Calm t u) : Calm s u where
  toFrameKept := h.toFrameKept.trans k.toFrameKept
  aq := by rw [k.aq, h.aq]
  list := k.list.trans h.list
  builder := k.builder.trans h.builder
  buffer := k.buffer.trans h.buffer

theorem Calm.only {s t : State} (h : OnlyConditions s t) : Calm s t := by
  obtain ⟨_, _, _, _, rfl⟩ := h
  exact ⟨⟨rfl, rfl, rfl, rfl, rfl, rfl, rfl, rfl, rfl, rfl, rfl, rfl, rfl⟩, rfl, rfl, rfl, rfl⟩

/-! ## One thing at a time -/

theorem lockTick_eq (starts : Bool) (s : State) :
    ∃ lock n, lockTick starts s = { s with clk := { s.clk with state := lock, lockCount := n } } := by
  unfold lockTick
  split
  · split
    · exact ⟨_, _, rfl⟩
    · split <;> exact ⟨_, _, rfl⟩
  all_goals exact ⟨_, _, rfl⟩

theorem expireGate_only (c : Chan) (s : State) :
    OnlyConditions (s.mapInteg fun i => { i with readings := put i.readings c (newReading i i.readings[c]) }.moveOn c)
      (expireGate c s) :=
  ((occurIf_only _ _ _ _).trans (occurIf_only _ _ _ _)).trans (occurIf_only _ _ _ _)

theorem scanTick_only (s : State) : ∃ i, OnlyConditions { s with integ := i } (scanTick s) := by
  unfold scanTick
  split
  · exact ⟨_, .refl s⟩
  · split <;> exact ⟨_, .refl _⟩
  · split
    · exact ⟨_, expireGate_only _ s⟩
    · exact ⟨_, .refl _⟩

theorem missPulse_only (s : State) : OnlyConditions s (missPulse s) := (tally_only _ s).trans (occur_only _ _ _)

theorem foldl_only {α : Type} (f : State → α → State) (h : ∀ s a, OnlyConditions s (f s a)) (l : List α) (s : State) :
    OnlyConditions s (l.foldl f s) := by
  induction l generalizing s with
  | nil => exact .refl s
  | cons a l ih => exact (h s a).trans (ih _)

theorem expirePulses_only (s : State) : OnlyConditions (keepUnexpired s) (expirePulses s) :=
  foldl_only _ (fun s _ => missPulse_only s) _ _

/-- The state of a firing before CAL_LIST_FULL (R168). -/
def fired (k : Nat) (s : State) : State :=
  (markInjected s.inj.mask s).mapInj fun i =>
    { i with driven := i.driven ++ [{ serial := s.timing.serial, mask := i.mask, amplitude := i.amplitude }],
             pending := if decide (8 ≤ s.inj.pending.length) then i.pending
               else i.pending ++ [{ serial := s.timing.serial, train := s.inj.train, index := k }],
             state := afterFiring i s.timing.serial (k + 1) }

theorem firePulse_eq (k : Nat) (s : State) :
    firePulse k s = occurIf (decide (8 ≤ s.inj.pending.length)) .calListFull none (fired k s) := rfl

theorem firePulse_only (k : Nat) (s : State) : OnlyConditions (fired k s) (firePulse k s) := occurIf_only _ _ _ _

theorem fired_calm (k : Nat) (s : State) : Calm s (fired k s) := (.moves s _ _ _ _ _ _ _ _)

theorem firePulse_calm (k : Nat) (s : State) : Calm s (firePulse k s) := (fired_calm k s).trans (.only (firePulse_only k s))

theorem fireDue_cases (s : State) : fireDue s = s ∨ ∃ k, fireDue s = firePulse k s := by
  unfold fireDue
  split
  · exact .inl rfl
  · exact .inl rfl
  · split
    · exact .inr ⟨_, rfl⟩
    · exact .inl rfl
  · split
    · exact .inr ⟨_, rfl⟩
    · exact .inl rfl

theorem startTrain_calm (first : Serial) (s : State) : Calm s (startTrain first s) := (.moves s _ _ _ _ _ _ _ _)

theorem pulseRequest_calm (before : InjState) (s : State) : Calm s (pulseRequest before s) := by
  cases before with
  | disarmed => exact .refl s
  | armed =>
    unfold pulseRequest
    dsimp only
    split
    · exact (startTrain_calm _ s).trans (firePulse_calm _ _)
    · exact startTrain_calm _ s
  | delaying next => exact .only (occur_only _ _ s)
  | firing next k => exact .only (occur_only _ _ s)

theorem stallTick_only (finds : Bool) (s : State) :
    ∃ timer mark, OnlyConditions { s with tx := { s.tx with stallTimer := timer, stallMark := mark } } (stallTick finds s) :=
  ⟨_, _, occurIf_only _ _ _ _⟩

/-- All but an accept leave records, list, builder and output buffer. -/
theorem frameAct_calm {x : FrameContext} {a : FrameAct} (h : a ≠ .accept ∨ x.fc.accept = false) (s : State) :
    Calm s (frameAct x a s) := by
  cases a with
  | lock =>
    obtain ⟨lock, n, e⟩ := lockTick_eq x.starts s
    rw [frameAct, e]
    exact (.moves s _ _ _ _ _ _ _ _)
  | gate =>
    obtain ⟨i, only⟩ := scanTick_only s
    exact .trans (t := { s with integ := i }) (.moves s _ _ _ _ _ _ _ _) (.only only)
  | expire => exact .trans (t := keepUnexpired s) (.moves s _ _ _ _ _ _ _ _) (.only (expirePulses_only s))
  | fire =>
    rcases fireDue_cases s with e | ⟨k, e⟩ <;> rw [frameAct, e]
    · exact .refl s
    · exact firePulse_calm k s
  | request =>
    show Calm s (if _ then _ else _)
    split
    · exact pulseRequest_calm _ s
    · exact .refl s
  | accept =>
    have none : x.fc.accept = false := h.resolve_left fun ne => ne rfl
    rw [frameAct, none, if_neg Bool.false_ne_true]
    exact .refl s
  | stall =>
    obtain ⟨timer, mark, only⟩ := stallTick_only (x.wasWaiting || (waiting s && Config.stallAfterAccept x.index)) s
    exact .trans (t := { s with tx := { s.tx with stallTimer := timer, stallMark := mark } }) (.moves s _ _ _ _ _ _ _ _)
      (.only only)

/-! ## An accept -/

/-- Besides, an accept leaves what the other things of a frame move. -/
structure AcceptKept (s t : State) : Prop extends FrameKept s t where
  clk : t.clk = s.clk
  integ : t.integ = s.integ
  pipe : t.pipe = s.pipe
  stallTimer : t.tx.stallTimer = s.tx.stallTimer
  stallMark : t.tx.stallMark = s.tx.stallMark

theorem AcceptKept.trans {s t u : State} (h : AcceptKept s t) (k : AcceptKept t u) : AcceptKept s u where
  toFrameKept := h.toFrameKept.trans k.toFrameKept
  clk := k.clk.trans h.clk
  integ := k.integ.trans h.integ
  pipe := k.pipe.trans h.pipe
  stallTimer := k.stallTimer.trans h.stallTimer
  stallMark := k.stallMark.trans h.stallMark

theorem AcceptKept.refl (s : State) : AcceptKept s s := ⟨.refl s, rfl, rfl, rfl, rfl, rfl⟩

theorem AcceptKept.only {s t : State} (h : OnlyConditions s t) : AcceptKept s t := by
  have kept := (Calm.only h).toFrameKept
  obtain ⟨_, _, _, _, rfl⟩ := h
  exact ⟨kept, rfl, rfl, rfl, rfl, rfl⟩

/-- The blocks that an accept can move. -/
theorem AcceptKept.moves (s : State) (st : AcqState) (aq : AcceptQueue) (inj : Injector) (list : ReadoutList)
    (builder : Builder) (buffer : List LinkWord) (wf : Option ThrottleFrame) (cond : CondTable) :
    AcceptKept s { s with
      acq := { s.acq with state := st }
      aq := aq
      inj := inj
      list := list
      builder := builder
      tx := { s.tx with buffer := buffer, waitingFrame := wf }
      cond := cond } :=
  ⟨⟨rfl, rfl, rfl, rfl, rfl, rfl, rfl, rfl, rfl, rfl, rfl, rfl, rfl⟩, rfl, rfl, rfl, rfl, rfl⟩

theorem enterStandby_kept (s : State) : AcceptKept s (enterStandby s) := by
  rw [enterStandby_exact]
  exact .moves s _ _ _ _ _ _ _ _

theorem drainTest_kept (s : State) : AcceptKept s (drainTest s) := by
  unfold drainTest
  split
  · exact enterStandby_kept s
  · exact .refl s

theorem removeHead_kept (s : State) : AcceptKept s (removeHead s) := by
  rcases removeHead_cases s with ⟨-, e⟩ | ⟨r, rest, -, e | e⟩ <;> rw [e]
  · exact .refl s
  · exact .moves s _ _ _ _ _ _ _ _
  · exact .trans (t := s.mapAq (dropHead r rest)) (.moves s _ _ _ _ _ _ _ _) (.only (throttleRelax_only _))

/-- The words of a fragment in the buffer, and FRAGS and WORDS counted (R145). -/
def appendWords (b : Build) (s : State) : State :=
  tally (fun c => { c with frags := c.frags + 1, words := c.words + BitVec.ofNat 32 b.length })
    (s.mapTx fun t => { t with buffer := t.buffer ++ fragmentWords b s.cond.summary s.tx.sourceId })

/-- The swap mark cleared and the builder IDLE after an append (R145). -/
def closeBuild (s : State) : State :=
  (s.mapList fun l => { l with swap := false }).mapBuilder fun _ => { state := .idle, inFlight := none }

theorem appendFragment_stages (b : Build) (s : State) :
    appendFragment b s = drainTest (closeBuild (removeHead (appendWords b s))) := rfl

theorem appendFragment_kept (b : Build) (s : State) : AcceptKept s (appendFragment b s) := by
  rw [appendFragment_stages]
  have appended : AcceptKept s (appendWords b s) := .moves s _ _ _ _ _ _ _ _
  have closed : AcceptKept (removeHead (appendWords b s)) (closeBuild (removeHead (appendWords b s))) :=
    .moves _ _ _ _ _ _ _ _ _
  exact ((appended.trans (removeHead_kept _)).trans closed).trans (drainTest_kept _)

theorem settleBuilder_kept (s : State) : AcceptKept s (settleBuilder s) :=
  settleBuilder_keeps (AcceptKept s)
    (fun t r _ h _ _ => h.trans (by rw [startRecord_eq]; exact .moves t _ _ _ _ _ _ _ _))
    (fun t b h _ _ => h.trans (.moves t _ _ _ _ _ _ _ _))
    (fun t b h _ _ => h.trans (appendFragment_kept b t)) s (.refl s)

theorem ruleCheck_kept (e : EventNum) (s : State) : AcceptKept s (ruleCheck e s) := by
  unfold ruleCheck
  split
  · exact .trans (.only ((occur_only .ruleViol (some e) s).trans (tally_only _ _))) (.moves _ _ _ _ _ _ _ _ _)
  · exact .moves s _ _ _ _ _ _ _ _

theorem makeRecord_kept (e : EventNum) (v : Bool) (kind : RecordKind) (s : State) :
    AcceptKept s (makeRecord e v kind s) := by
  have made : AcceptKept s (recordOccurrences e kind s) := .only (recordOccurrences_only e kind s)
  have appended : ∀ (r : Record) (snap : Snapshot) (u : State), AcceptKept u (appendRecord r snap u) := by
    intro r snap u
    obtain ⟨mark, t, rfl, e | e⟩ := appendRecord_cases r snap u <;> rw [e]
    · exact .moves u _ _ _ _ _ _ _ _
    · exact .trans (.moves u _ _ _ _ _ _ _ _) (.only (throttleOn_only _))
  exact (made.trans (t := recordOccurrences e kind s) (u := retirePulses (acceptRef s) (windowSpan s.acq) (recordOccurrences e kind s))
    (.moves _ _ _ _ _ _ _ _ _)).trans
    ((appended _ _ _).trans (settleBuilder_kept _))

theorem acceptArrival_kept (e : EventNum) (s : State) : AcceptKept s (acceptArrival e s) := by
  have checked : AcceptKept s (ruleCheck e (countSeen s)) := .trans (.moves s _ _ _ _ _ _ _ _) (ruleCheck_kept e (countSeen s))
  show AcceptKept s (decideAccept e (ruleViolated s.aq s.timing.serial) (ruleCheck e (countSeen s)))
  rcases decideAccept_cases e (ruleViolated s.aq s.timing.serial) (ruleCheck e (countSeen s)) with
    h | h | ⟨kind, -, h⟩ <;> rw [h]
  · exact checked.trans (.trans (t := makeGap (ruleCheck e (countSeen s))) (.moves _ _ _ _ _ _ _ _ _) (.only (occur_only _ _ _)))
  · exact checked.trans (u := makeGap (ruleCheck e (countSeen s))) (.moves _ _ _ _ _ _ _ _ _)
  · exact checked.trans (makeRecord_kept _ _ _ _)

theorem frameAct_kept (x : FrameContext) (a : FrameAct) (s : State) : FrameKept s (frameAct x a s) := by
  by_cases h : a = .accept
  · subst h
    show FrameKept s (if _ then _ else _)
    split
    · exact (acceptArrival_kept _ s).toFrameKept
    · exact .refl s
  · exact (frameAct_calm (.inl h) s).toFrameKept

end Sys2Proof.Machine
end


section
/-!
What each thing a frame brings about moves of clock, monitor, injector and stall timer, and which records of the Condition Table
it can move; from them what a whole frame leaves.
-/

namespace Sys2Proof.Machine

/-! ## One block, one thing -/

theorem fired_eq (k : Nat) (s : State) :
    ∃ inj chans, fired k s = { s with inj := inj, pipe := { s.pipe with chans := chans } } := ⟨_, _, rfl⟩

theorem fireDue_only (s : State) :
    ∃ inj chans, OnlyConditions { s with inj := inj, pipe := { s.pipe with chans := chans } } (fireDue s) := by
  rcases fireDue_cases s with e | ⟨k, e⟩ <;> rw [e]
  · exact ⟨_, _, .refl s⟩
  · obtain ⟨inj, chans, e⟩ := fired_eq k s
    exact ⟨inj, chans, e ▸ firePulse_only k s⟩

theorem pulseRequest_only (before : InjState) (s : State) :
    ∃ inj chans, OnlyConditions { s with inj := inj, pipe := { s.pipe with chans := chans } } (pulseRequest before s) := by
  cases before with
  | disarmed => exact ⟨_, _, .refl s⟩
  | armed =>
    unfold pulseRequest
    dsimp only
    split
    · obtain ⟨inj, chans, e⟩ := fired_eq 0 (startTrain (s.timing.serial + BitVec.ofNat 32 s.inj.delay) s)
      have only := firePulse_only 0 (startTrain (s.timing.serial + BitVec.ofNat 32 s.inj.delay) s)
      rw [e] at only
      exact ⟨inj, chans, only⟩
    · exact ⟨_, s.pipe.chans, .refl (startTrain _ s)⟩
  | delaying next => exact ⟨_, _, occur_only _ _ s⟩
  | firing next k => exact ⟨_, _, occur_only _ _ s⟩

/-- What a thing moves before the occurrences it brings about. -/
def actMoved (a : FrameAct) (s u : State) : Prop :=
  match a with
  | .lock => ∃ clk, u = { s with clk := clk }
  | .gate => ∃ integ, u = { s with integ := integ }
  | .expire => u = keepUnexpired s
  | .fire => ∃ inj chans, u = { s with inj := inj, pipe := { s.pipe with chans := chans } }
  | .request => ∃ inj chans, u = { s with inj := inj, pipe := { s.pipe with chans := chans } }
  | .accept => u = s
  | .stall => ∃ timer mark, u = { s with tx := { s.tx with stallTimer := timer, stallMark := mark } }

/-- A thing moves its block and what an occurrence can move; an accept leaves what the others move. -/
theorem frameAct_moved (x : FrameContext) (a : FrameAct) (s : State) :
    (∃ u, actMoved a s u ∧ OnlyConditions u (frameAct x a s)) ∨ (a = .accept ∧ AcceptKept s (frameAct x a s)) := by
  cases a with
  | lock =>
    obtain ⟨lock, n, e⟩ := lockTick_eq x.starts s
    refine .inl ⟨_, ⟨{ s.clk with state := lock, lockCount := n }, rfl⟩, ?_⟩
    rw [frameAct, e]
    exact .refl _
  | gate =>
    obtain ⟨i, only⟩ := scanTick_only s
    exact .inl ⟨_, ⟨i, rfl⟩, only⟩
  | expire => exact .inl ⟨_, rfl, expirePulses_only s⟩
  | fire =>
    obtain ⟨inj, chans, only⟩ := fireDue_only s
    exact .inl ⟨_, ⟨inj, chans, rfl⟩, only⟩
  | request =>
    rw [frameAct]
    split
    · obtain ⟨inj, chans, only⟩ := pulseRequest_only x.before s
      exact .inl ⟨_, ⟨inj, chans, rfl⟩, only⟩
    · exact .inl ⟨s, ⟨s.inj, s.pipe.chans, rfl⟩, .refl s⟩
  | accept =>
    refine .inr ⟨rfl, ?_⟩
    rw [frameAct]
    split
    · exact acceptArrival_kept _ s
    · exact .refl s
  | stall =>
    obtain ⟨timer, mark, only⟩ := stallTick_only (x.wasWaiting || (waiting s && Config.stallAfterAccept x.index)) s
    exact .inl ⟨_, ⟨timer, mark, rfl⟩, only⟩

section

variable (x : FrameContext) {a : FrameAct} (s : State)

theorem frameAct_clk (h : a ≠ .lock) : (frameAct x a s).clk = s.clk := by
  rcases frameAct_moved x a s with ⟨u, moved, only⟩ | ⟨-, kept⟩
  · rw [only.clk]
    cases a with
    | lock => exact absurd rfl h
    | expire => obtain rfl := moved; rfl
    | gate => obtain ⟨_, rfl⟩ := moved; rfl
    | fire => obtain ⟨_, _, rfl⟩ := moved; rfl
    | request => obtain ⟨_, _, rfl⟩ := moved; rfl
    | accept => obtain rfl := moved; rfl
    | stall => obtain ⟨_, _, rfl⟩ := moved; rfl
  · exact kept.clk

theorem frameAct_integ (h : a ≠ .gate) : (frameAct x a s).integ = s.integ := by
  rcases frameAct_moved x a s with ⟨u, moved, only⟩ | ⟨-, kept⟩
  · rw [only.integ]
    cases a with
    | gate => exact absurd rfl h
    | expire => obtain rfl := moved; rfl
    | lock => obtain ⟨_, rfl⟩ := moved; rfl
    | fire => obtain ⟨_, _, rfl⟩ := moved; rfl
    | request => obtain ⟨_, _, rfl⟩ := moved; rfl
    | accept => obtain rfl := moved; rfl
    | stall => obtain ⟨_, _, rfl⟩ := moved; rfl
  · exact kept.integ

theorem frameAct_stall (h : a ≠ .stall) :
    (frameAct x a s).tx.stallTimer = s.tx.stallTimer ∧ (frameAct x a s).tx.stallMark = s.tx.stallMark := by
  rcases frameAct_moved x a s with ⟨u, moved, only⟩ | ⟨-, kept⟩
  · rw [only.tx]
    cases a with
    | stall => exact absurd rfl h
    | expire => obtain rfl := moved; exact ⟨rfl, rfl⟩
    | lock => obtain ⟨_, rfl⟩ := moved; exact ⟨rfl, rfl⟩
    | gate => obtain ⟨_, rfl⟩ := moved; exact ⟨rfl, rfl⟩
    | fire => obtain ⟨_, _, rfl⟩ := moved; exact ⟨rfl, rfl⟩
    | request => obtain ⟨_, _, rfl⟩ := moved; exact ⟨rfl, rfl⟩
    | accept => obtain rfl := moved; exact ⟨rfl, rfl⟩
  · exact ⟨kept.stallTimer, kept.stallMark⟩

/-- The injector and the INJ counts change with a firing, an expiry or a request; an accept retires pulses of the list too. -/
theorem frameAct_inj (h : a = .lock ∨ a = .gate ∨ a = .stall) : (frameAct x a s).inj = s.inj := by
  rcases frameAct_moved x a s with ⟨u, moved, only⟩ | ⟨rfl, -⟩
  · rw [only.inj]
    rcases h with rfl | rfl | rfl
    · obtain ⟨_, rfl⟩ := moved; rfl
    · obtain ⟨_, rfl⟩ := moved; rfl
    · obtain ⟨_, _, rfl⟩ := moved; rfl
  · simp at h

theorem frameAct_pipe (fire : a ≠ .fire) (request : a ≠ .request) : (frameAct x a s).pipe = s.pipe := by
  rcases frameAct_moved x a s with ⟨u, moved, only⟩ | ⟨-, kept⟩
  · rw [only.pipe]
    cases a with
    | fire => exact absurd rfl fire
    | request => exact absurd rfl request
    | expire => obtain rfl := moved; rfl
    | lock => obtain ⟨_, rfl⟩ := moved; rfl
    | gate => obtain ⟨_, rfl⟩ := moved; rfl
    | accept => obtain rfl := moved; rfl
    | stall => obtain ⟨_, _, rfl⟩ := moved; rfl
  · exact kept.pipe

end

/-! ## The records of the Condition Table -/

/-- The records of all conditions but those listed stay. -/
def CondsOnly (l : List Cond) (s t : State) : Prop := ∀ i : Fin 25, i ∉ l.map Cond.num → t.cond.recs[i] = s.cond.recs[i]

namespace CondsOnly

theorem same {l : List Cond} {s t : State} (h : t.cond.recs = s.cond.recs) : CondsOnly l s t := fun i _ => by rw [h]

theorem refl (l : List Cond) (s : State) : CondsOnly l s s := fun _ _ => rfl

theorem trans {l : List Cond} {s t u : State} (h : CondsOnly l s t) (k : CondsOnly l t u) : CondsOnly l s u :=
  fun i other => (k i other).trans (h i other)

theorem occur {l : List Cond} {c : Cond} (h : c ∈ l) (ev : Option EventNum) (s : State) :
    CondsOnly l s (Machine.occur c ev s) := by
  intro i other
  refine occur_rec_other c ev s i fun e => other ?_
  rw [e]
  exact List.mem_map_of_mem h

theorem occurIf {l : List Cond} {c : Cond} (h : c ∈ l) (b : Bool) (ev : Option EventNum) (s : State) :
    CondsOnly l s (Machine.occurIf b c ev s) := by
  cases b
  · exact .refl l s
  · exact .occur h ev s

theorem foldl {α : Type} {l : List Cond} (f : State → α → State) (h : ∀ s a, CondsOnly l s (f s a)) (as : List α)
    (s : State) : CondsOnly l s (as.foldl f s) := by
  induction as generalizing s with
  | nil => exact .refl l s
  | cons a as ih => exact (h s a).trans (ih _)

end CondsOnly

/-- The conditions an accept can have occur. -/
def acceptConds : List Cond := [.aqOverflow, .noSlot, .ruleViol, .listSwapStop]

theorem tally_recs (f : Counters → Counters) (s : State) : (tally f s).cond.recs = s.cond.recs := rfl

theorem drainTest_conds (s : State) : CondsOnly acceptConds s (drainTest s) := by
  unfold drainTest
  split
  · rw [enterStandby_eq]
    split
    · exact .trans (t := applyCommit (s.mapAcq fun a => { a with state := .standby })) (.same rfl)
        (.occur (by simp [acceptConds]) _ _)
    · exact .same rfl
  · exact .refl _ s

theorem removeHead_cond (s : State) : (removeHead s).cond = s.cond := by
  rcases removeHead_cases s with ⟨-, e⟩ | ⟨r, rest, -, e | e⟩ <;> rw [e]
  · rfl
  · exact throttleRelax_cond _

theorem appendFragment_conds (b : Build) (s : State) : CondsOnly acceptConds s (appendFragment b s) := by
  rw [appendFragment_stages]
  refine .trans (.same ?_) (drainTest_conds _)
  show (removeHead (appendWords b s)).cond.recs = _
  rw [removeHead_cond]
  rfl

theorem settleBuilder_conds (s : State) : CondsOnly acceptConds s (settleBuilder s) :=
  settleBuilder_keeps (CondsOnly acceptConds s)
    (fun t r _ h _ _ => h.trans (by rw [startRecord_eq]; exact .same rfl))
    (fun t b h _ _ => h.trans (.same rfl))
    (fun t b h _ _ => h.trans (appendFragment_conds b t)) s (.refl _ s)

theorem ruleCheck_conds (e : EventNum) (s : State) : CondsOnly acceptConds s (ruleCheck e s) := by
  unfold ruleCheck
  split
  · exact .trans (t := occur .ruleViol (some e) s) (.occur (by simp [acceptConds]) _ s) (.same rfl)
  · exact .same rfl

theorem recordOccurrences_conds (e : EventNum) (kind : RecordKind) (s : State) :
    CondsOnly acceptConds s (recordOccurrences e kind s) := by
  rw [recordOccurrences_eq]
  cases kind with
  | full k => exact .same rfl
  | nosnap reason =>
    refine .trans (t := tally (fun c => { c with noSnaps := c.noSnaps + 1 }) (countMade s)) (.same ?_)
      (.occurIf (by simp [acceptConds]) _ _ _)
    exact (tally_recs _ _).trans (tally_recs _ s)

theorem appendRecord_cond (r : Record) (snap : Snapshot) (s : State) : (appendRecord r snap s).cond = s.cond := by
  obtain ⟨mark, t, rfl, e | e⟩ := appendRecord_cases r snap s <;> rw [e]
  · rfl
  · exact throttleOn_cond _

theorem makeRecord_conds (e : EventNum) (v : Bool) (kind : RecordKind) (s : State) :
    CondsOnly acceptConds s (makeRecord e v kind s) := by
  refine .trans (.trans (recordOccurrences_conds e kind s) (.same ?_)) (settleBuilder_conds _)
  rw [appendRecord_cond]
  rfl

theorem acceptArrival_conds (e : EventNum) (s : State) : CondsOnly acceptConds s (acceptArrival e s) := by
  have checked : CondsOnly acceptConds s (ruleCheck e (countSeen s)) := .trans (.same rfl) (ruleCheck_conds e _)
  show CondsOnly acceptConds s (decideAccept e (ruleViolated s.aq s.timing.serial) (ruleCheck e (countSeen s)))
  rcases decideAccept_cases e (ruleViolated s.aq s.timing.serial) (ruleCheck e (countSeen s)) with
    h | h | ⟨kind, -, h⟩ <;> rw [h]
  · exact checked.trans (.trans (t := makeGap (ruleCheck e (countSeen s))) (.same rfl) (.occur (by simp [acceptConds]) _ _))
  · exact checked.trans (.same rfl)
  · exact checked.trans (makeRecord_conds _ _ _ _)

/-- The monitor with the reading of a channel written and the scan moved on (R177). -/
def gateRead (c : Chan) (s : State) : State :=
  s.mapInteg fun i => { i with readings := put i.readings c (newReading s.integ s.integ.readings[c]) }.moveOn c

theorem expireGate_stages (c : Chan) (s : State) :
    expireGate c s =
      occurIf (decide (s.integ.limit < s.integ.counter)) .intHigh none
        (occurIf (newReading s.integ s.integ.readings[c]).ovf .intOvf none
          (occurIf (newReading s.integ s.integ.readings[c]).overwritten .intOverwrite none (gateRead c s))) := rfl

/-- The conditions that a thing can have occur. -/
def actConds : FrameAct → List Cond
  | .lock => []
  | .gate => [.intOverwrite, .intOvf, .intHigh]
  | .expire => [.calMissed]
  | .fire => [.calListFull]
  | .request => [.calListFull, .calOverlap]
  | .accept => acceptConds
  | .stall => [.rlStall]

theorem firePulse_conds {l : List Cond} (h : .calListFull ∈ l) (k : Nat) (s : State) : CondsOnly l s (firePulse k s) := by
  rw [firePulse_eq]
  exact .trans (t := fired k s) (.same rfl) (.occurIf h _ _ _)

theorem frameAct_conds (x : FrameContext) (a : FrameAct) (s : State) : CondsOnly (actConds a) s (frameAct x a s) := by
  cases a with
  | lock =>
    obtain ⟨lock, n, e⟩ := lockTick_eq x.starts s
    rw [frameAct, e]
    exact .same rfl
  | gate =>
    show CondsOnly _ s (scanTick s)
    unfold scanTick
    split
    · exact .refl _ s
    · split <;> exact .same rfl
    · next c n _ =>
      split
      · rw [expireGate_stages]
        exact .trans (.trans (.trans (t := gateRead c s) (.same rfl) (.occurIf (by simp [actConds]) _ _ _))
          (.occurIf (by simp [actConds]) _ _ _)) (.occurIf (by simp [actConds]) _ _ _)
      · exact .same rfl
  | expire =>
    show CondsOnly _ s (expirePulses s)
    rw [expirePulses_eq]
    exact .trans (t := keepUnexpired s) (.same rfl)
      (.foldl _ (fun t _ => .trans (t := tally (fun c => { c with missed := c.missed + 1 }) t) (.same (tally_recs _ t))
        (.occur (by simp [actConds]) _ _)) _ _)
  | fire =>
    rcases fireDue_cases s with e | ⟨k, e⟩ <;> rw [frameAct, e]
    · exact .refl _ s
    · exact firePulse_conds (by simp [actConds]) k s
  | request =>
    rw [frameAct]
    split
    · cases x.before with
      | disarmed => exact .refl _ s
      | armed =>
        unfold pulseRequest
        dsimp only
        split
        · exact .trans (t := startTrain (s.timing.serial + BitVec.ofNat 32 s.inj.delay) s) (.same rfl)
            (firePulse_conds (by simp [actConds]) 0 _)
        · exact .same rfl
      | delaying next => exact .occur (by simp [actConds]) _ s
      | firing next k => exact .occur (by simp [actConds]) _ s
    · exact .refl _ s
  | accept =>
    rw [frameAct]
    split
    · exact acceptArrival_conds _ s
    · exact .refl _ s
  | stall =>
    show CondsOnly _ s (stallTick _ s)
    unfold stallTick
    refine .trans ?_ (.occurIf (by simp [actConds]) _ _ _)
    exact .same rfl

/-! ## The Timing Receiver's occurrences -/

/-- The conditions the Timing Receiver can have occur. -/
def receiverConds : List Cond := [.tlLoss, .tlCheck, .turnSlip]

theorem commandFrame_conds (fc : FastCommands) (s : State) : CondsOnly receiverConds s (commandFrame fc s) := by
  have marked : CondsOnly receiverConds s (turnmark s) :=
    .trans (t := s.mapTiming fun t => { t with counter := 0, aligned := true }) (.same rfl)
      (.occurIf (by simp [receiverConds]) _ _ _)
  unfold commandFrame
  split
  · exact marked.trans (.same rfl)
  · exact .same rfl

theorem receiverFrame_conds (f : Byte) (s : State) : CondsOnly receiverConds s (receiverFrame f s) := by
  have appeared : CondsOnly receiverConds s (clockAppears s) := by
    unfold clockAppears
    split <;> exact .same rfl
  have bad : ∀ u : State, CondsOnly receiverConds u (badFrame u) := by
    intro u
    have checked : CondsOnly receiverConds u (occur .tlCheck none (u.mapTiming fun t => { t with failCount := t.failCount + 1 })) :=
      .trans (t := u.mapTiming fun t => { t with failCount := t.failCount + 1 }) (.same rfl)
        (.occur (by simp [receiverConds]) _ _)
    unfold badFrame
    dsimp only
    split
    · exact checked.trans (.trans (.same rfl) (.occur (by simp [receiverConds]) _ _))
    · exact checked
  have taken : CondsOnly receiverConds (clockAppears s) (takeFrame (frameGood f) (clockAppears s)) := by
    unfold takeFrame
    dsimp only
    split
    · exact .same rfl
    · exact .same rfl
    · split
      · exact .same rfl
      · exact .trans (.same rfl) (bad _)
  rw [receiverFrame_stages]
  refine (appeared.trans taken).trans (.trans (.same rfl) (commandFrame_conds _ _))

theorem receiverFrame_kept (f : Byte) (s : State) :
    FrameKept { s with timing := (receiverFrame f s).timing, clk := (receiverFrame f s).clk } (receiverFrame f s) :=
  (Calm.only (receiverFrame_frame f s)).toFrameKept

/-! ## A whole frame -/

/-- What the things of a frame look at besides the state. -/
def frameContext (f : Byte) (s : State) : FrameContext :=
  { fc := fastCommands s.timing.link f, number := acceptNumber (fastCommands s.timing.link f) s, starts := !clockPresent s,
    before := s.inj.state, wasWaiting := waiting s, index := s.freeIndex }

/-- The things of a frame in their order. -/
def frameActed (f : Byte) (s : State) : State :=
  (actOrder (fastCommands s.timing.link f) (receiverFrame f s)).foldl (fun t a => frameAct (frameContext f s) a t)
    (receiverFrame f s)

end Sys2Proof.Machine
end


section
/-!
A whole timing-link frame: the Timing Receiver's block, the clock, the monitor and the stall timer are each set once, and from
that the statements about counting, link and stall.
-/

namespace Sys2Proof.Machine

section

variable (f : Byte) (s : State)

theorem timingFrame_eq : timingFrame f s = (frameActed f s).mapFreeIndex (· + 1) := rfl

theorem frameActed_kept : FrameKept (receiverFrame f s) (frameActed f s) :=
  foldActs_keeps (FrameKept (receiverFrame f s)) _ _ (fun a _ t h => h.trans (frameAct_kept _ a t)) _ (.refl _)

theorem frameActed_calm (none : (fastCommands s.timing.link f).accept = false) :
    Calm (receiverFrame f s) (frameActed f s) :=
  foldActs_keeps (Calm (receiverFrame f s)) _ _ (fun _ _ t h => h.trans (frameAct_calm (.inr none) t)) _ (.refl _)

/-- What a frame leaves besides the Timing Receiver's block and the clock. -/
theorem timingFrame_kept :
    FrameKept { s with timing := (receiverFrame f s).timing, clk := (receiverFrame f s).clk } (timingFrame f s) :=
  (receiverFrame_kept f s).trans ((frameActed_kept f s).trans
    ⟨rfl, rfl, rfl, rfl, rfl, rfl, rfl, rfl, rfl, rfl, rfl, rfl, rfl⟩)

theorem timingFrame_calm (none : (fastCommands s.timing.link f).accept = false) :
    Calm { s with timing := (receiverFrame f s).timing, clk := (receiverFrame f s).clk } (timingFrame f s) :=
  (Calm.only (receiverFrame_frame f s)).trans ((frameActed_calm f s none).trans
    ⟨⟨rfl, rfl, rfl, rfl, rfl, rfl, rfl, rfl, rfl, rfl, rfl, rfl, rfl⟩, rfl, rfl, rfl, rfl⟩)

theorem timingFrame_timing : (timingFrame f s).timing = s.timing.received f :=
  (frameActed_kept f s).timing.trans (receiverFrame_timing f s)

/-- The record of a condition that none of the things has occur is the one the Timing Receiver leaves. -/
theorem timingFrame_rec {i : Fin 25} (h : ∀ a, i ∉ (actConds a).map Cond.num) :
    (timingFrame f s).cond.recs[i] = (receiverFrame f s).cond.recs[i] :=
  foldActs_keeps (fun t => t.cond.recs[i] = (receiverFrame f s).cond.recs[i]) _ _
    (fun a _ t e => (frameAct_conds _ a t i (h a)).trans e) _ rfl

/-- The record of a condition that one thing alone can have occur. -/
theorem timingFrame_rec_once {i : Fin 25} (a0 : FrameAct) (g : CondRec → CondRec)
    (sets : ∀ t, (frameAct (frameContext f s) a0 t).cond.recs[i] = g t.cond.recs[i])
    (h : ∀ a, a ≠ a0 → i ∉ (actConds a).map Cond.num) :
    (timingFrame f s).cond.recs[i] = g (receiverFrame f s).cond.recs[i] :=
  foldActs_once _ (fun t => t.cond.recs[i]) g a0 _ (actOrder_nodup _ _) (mem_actOrder _ _ _) sets
    (fun a other t => frameAct_conds _ a t i (h a other)) _

theorem receiverFrame_clk : (receiverFrame f s).clk = (clockAppears s).clk := by
  have bad : ∀ u : State, (badFrame u).clk = u.clk := by
    intro u
    unfold badFrame
    dsimp only
    split
    · rw [(occur_only _ _ _).clk, enterSeeking, State.mapTiming_clk, (occur_only _ _ _).clk]
      rfl
    · rw [(occur_only _ _ _).clk]
      rfl
  have taken : ∀ u : State, (takeFrame (frameGood f) u).clk = u.clk := by
    intro u
    unfold takeFrame
    dsimp only
    split
    · rfl
    · rfl
    · split
      · rfl
      · exact bad _
  have commanded : ∀ (fc : FastCommands) (u : State), (commandFrame fc u).clk = u.clk := by
    intro fc u
    unfold commandFrame
    split
    · exact (occurIf_only _ _ _ _).clk
    · rfl
  rw [receiverFrame_stages, commanded]
  exact taken _

theorem receiverFrame_clk_present (present : s.timing.link ≠ .noSignal) : (receiverFrame f s).clk = s.clk := by
  rw [receiverFrame_clk, clockAppears, clockPresent, decide_eq_true present, if_pos rfl]

theorem receiverFrame_integ : (receiverFrame f s).integ = s.integ := (receiverFrame_frame f s).integ

theorem receiverFrame_inj : (receiverFrame f s).inj = s.inj := (receiverFrame_frame f s).inj

/-! ## The clock and the monitor -/

/-- A crossing arrival at the Clock Synthesiser (R35). -/
def Clock.tick (starts : Bool) (c : Clock) : Clock :=
  match c.state with
  | .acquiring =>
    if starts then c
    else if 2048 ≤ c.lockCount + 1 then { c with state := .locked, lockCount := 2048 }
    else { c with lockCount := c.lockCount + 1 }
  | .unlocked => c
  | .locked => c

theorem lockTick_clk (starts : Bool) : (lockTick starts s).clk = s.clk.tick starts := by
  cases state : s.clk.state <;> simp only [lockTick, Clock.tick, state, State.mapClk]
  split
  · rfl
  · split <;> rfl

theorem timingFrame_clk : (timingFrame f s).clk = (receiverFrame f s).clk.tick (!clockPresent s) :=
  foldActs_once _ State.clk _ .lock _ (actOrder_nodup _ _) (mem_actOrder _ _ _)
    (fun t => lockTick_clk t _) (fun _ other t => frameAct_clk _ t other) _

/-- A crossing arrival at the Slow Integrator Monitor (R176, R177). -/
def Integrator.tick (i : Integrator) : Integrator :=
  match i.scan with
  | .idle => i
  | .settle c n => if n ≤ 1 then { i with counter := 0, scan := .gate c i.gateLength } else { i with scan := .settle c (n - 1) }
  | .gate c n =>
    if n ≤ 1 then { i with readings := put i.readings c (newReading i i.readings[c]) }.moveOn c
    else { i with scan := .gate c (n - 1) }

theorem scanTick_integ : (scanTick s).integ = s.integ.tick := by
  cases scan : s.integ.scan <;> simp only [scanTick, Integrator.tick, scan]
  · split <;> rfl
  · split
    · exact (expireGate_only _ s).integ
    · rfl

theorem timingFrame_integ : (timingFrame f s).integ = s.integ.tick :=
  (foldActs_once _ State.integ _ .gate _ (actOrder_nodup _ _) (mem_actOrder _ _ _)
    (fun t => scanTick_integ t) (fun _ other t => frameAct_integ _ t other) _).trans
    (congrArg Integrator.tick (receiverFrame_integ f s))

end

/-! ## The Timing Receiver's block after a frame -/

/-- The numbers of the crossing, and the settings of the turn. -/
def Timing.SameNumbers (t u : Timing) : Prop :=
  u.serial = t.serial ∧ u.counter = t.counter ∧ u.event = t.event ∧ u.turnLength = t.turnLength ∧
    u.quietFrom = t.quietFrom ∧ u.quietTo = t.quietTo

theorem Timing.takes_numbers (good : Bool) (t : Timing) : t.SameNumbers (t.appears.takes good) := by
  have appears : t.SameNumbers t.appears := by
    unfold Timing.appears
    split <;> exact ⟨rfl, rfl, rfl, rfl, rfl, rfl⟩
  have takes : ∀ u : Timing, u.SameNumbers (u.takes good) := by
    intro u
    unfold Timing.takes
    split
    · exact ⟨rfl, rfl, rfl, rfl, rfl, rfl⟩
    · split <;> exact ⟨rfl, rfl, rfl, rfl, rfl, rfl⟩
    · exact ⟨rfl, rfl, rfl, rfl, rfl, rfl⟩
    · exact ⟨rfl, rfl, rfl, rfl, rfl, rfl⟩
    · split <;> exact ⟨rfl, rfl, rfl, rfl, rfl, rfl⟩
  obtain ⟨serial, counter, event, turn, qf, qt⟩ := appears
  obtain ⟨serial', counter', event', turn', qf', qt'⟩ := takes t.appears
  exact ⟨serial'.trans serial, counter'.trans counter, event'.trans event, turn'.trans turn, qf'.trans qf, qt'.trans qt⟩

/-- The fast commands of a frame that acts. -/
def flagsOf (f : Byte) : FastCommands :=
  { accept := frameAccept f, turnmark := frameTurnmark f, evclear := frameEvclear f, pulsereq := framePulsereq f }

/-- No fast command. -/
def noCommands : FastCommands := { accept := false, turnmark := false, evclear := false, pulsereq := false }

theorem fastCommands_act {link : LinkState} {f : Byte} (locked : link = .locked) (good : frameGood f = true) :
    fastCommands link f = flagsOf f := by simp [fastCommands, flagsOf, locked, good]

theorem fastCommands_none {link : LinkState} {f : Byte} (h : ¬(link = .locked ∧ frameGood f = true)) :
    fastCommands link f = noCommands := by
  have idle : (decide (link = .locked) && frameGood f) = false := by
    rw [Bool.eq_false_iff, ne_eq, Bool.and_eq_true, decide_eq_true_eq]
    exact h
  simp [fastCommands, noCommands, idle]

theorem Timing.appears_present {t : Timing} (h : t.link ≠ .noSignal) : t.appears = t := if_pos h

theorem Timing.received_act {f : Byte} {t : Timing} (locked : t.link = .locked) (good : frameGood f = true) :
    t.received f = ({ t with lastTaken := t.candidate, failCount := 0 }.advance).commanded (flagsOf f) := by
  have taken : t.takes true = { t with lastTaken := t.candidate, failCount := 0 } := by simp [Timing.takes, locked]
  rw [Timing.received, fastCommands_act locked good, Timing.appears_present (by simp [locked]), good, taken]

theorem Timing.received_none {f : Byte} {t : Timing} (h : ¬(t.link = .locked ∧ frameGood f = true)) :
    t.received f = ((t.appears.takes (frameGood f)).advance).commanded noCommands := by
  rw [Timing.received, fastCommands_none h]

theorem Timing.commanded_fixed (fc : FastCommands) (t : Timing) :
    (t.commanded fc).serial = t.serial ∧ (t.commanded fc).turnLength = t.turnLength ∧
      (t.commanded fc).quietFrom = t.quietFrom ∧ (t.commanded fc).quietTo = t.quietTo := by
  unfold Timing.commanded
  dsimp only
  split <;> exact ⟨rfl, rfl, rfl, rfl⟩

theorem Timing.commanded_unmarked {fc : FastCommands} (t : Timing) (h : fc.turnmark = false) :
    (t.commanded fc).counter = t.counter ∧ (t.commanded fc).aligned = t.aligned := by
  simp [Timing.commanded, h]

theorem Timing.commanded_marked {fc : FastCommands} (t : Timing) (h : fc.turnmark = true) :
    (t.commanded fc).counter = 0 ∧ (t.commanded fc).aligned = true := by
  simp [Timing.commanded, h]

theorem Timing.commanded_event (fc : FastCommands) (t : Timing) :
    (t.commanded fc).event = (if fc.evclear then 0 else t.event) + if fc.accept then 1 else 0 := by
  have marked : (if fc.turnmark then { t with counter := 0, aligned := true } else t).event = t.event := by split <;> rfl
  simp only [Timing.commanded, marked]
  cases fc.accept
  · exact (BitVec.add_zero _).symm
  · rfl

/-- The fast commands leave the state of the link. -/
theorem Timing.commanded_link (fc : FastCommands) (t : Timing) :
    (t.commanded fc).link = t.link ∧ (t.commanded fc).failCount = t.failCount ∧ (t.commanded fc).runCount = t.runCount ∧
      (t.commanded fc).candidate = t.candidate ∧ (t.commanded fc).lastTaken = t.lastTaken := by
  unfold Timing.commanded
  dsimp only
  split <;> exact ⟨rfl, rfl, rfl, rfl, rfl⟩

theorem Timing.commanded_quiet (fc : FastCommands) (t : Timing) :
    (t.commanded fc).quiet = ((t.commanded fc).aligned && inQuiet (t.commanded fc)) := rfl

end Sys2Proof.Machine

namespace Sys2Proof.Machine

/-- A frame that passes in LOCKED at the Timing Receiver (R22, R29, R32). -/
theorem Timing.received_act_fields {f : Byte} {t : Timing} (locked : t.link = .locked) (good : frameGood f = true) :
    (t.received f).link = .locked ∧ (t.received f).failCount = 0 ∧
      (t.received f).event = (if frameEvclear f then 0 else t.event) + (if frameAccept f then 1 else 0) ∧
      (frameTurnmark f = true → (t.received f).counter = 0 ∧ (t.received f).aligned = true) ∧
      (frameTurnmark f = false → (t.received f).aligned = t.aligned) := by
  rw [Timing.received_act locked good]
  obtain ⟨link, failCount, -, -, -⟩ :=
    ({ t with lastTaken := t.candidate, failCount := 0 }.advance).commanded_link (flagsOf f)
  exact ⟨link.trans locked, failCount, Timing.commanded_event _ _, fun marked => Timing.commanded_marked (fc := flagsOf f) _ marked,
    fun unmarked => (Timing.commanded_unmarked _ unmarked).2⟩

/-- TURN_SLIP where an acting TURNMARK finds an aligned counter at other than 0 (R29). -/
theorem receiverFrame_turnSlip {f : Byte} {s : State} (locked : s.timing.link = .locked) (good : frameGood f = true)
    (marked : frameTurnmark f = true) (aligned : s.timing.aligned = true)
    (inTurn : s.timing.counter + 1 < s.timing.turnLength) :
    (receiverFrame f s).cond.recs[(2 : Fin 25)] = s.cond.recs[(2 : Fin 25)].occur none := by
  let u := advanceCrossing (takeFrame (frameGood f) (clockAppears s))
  have timing : u.timing = { s.timing with lastTaken := s.timing.candidate, failCount := 0 }.advance := by
    show Timing.advance (takeFrame (frameGood f) (clockAppears s)).timing = _
    rw [takeFrame_timing, clockAppears_timing, Timing.appears_present (by simp [locked]), good]
    simp [Timing.takes, locked]
  have cond : u.cond = s.cond := by
    have present : clockAppears s = s := by
      rw [clockAppears, clockPresent, decide_eq_true (by simp [locked]), if_pos rfl]
    show (takeFrame (frameGood f) (clockAppears s)).cond = _
    rw [present, good]
    simp [takeFrame, locked]
  have slips : (u.timing.aligned && decide (u.timing.counter ≠ 0)) = true := by
    simp [timing, Timing.advance, aligned, inTurn]
  have marks : (commandFrame (flagsOf f) u).cond = (occur .turnSlip none
      (u.mapTiming fun t => { t with counter := 0, aligned := true })).cond := by
    show (if (flagsOf f).turnmark then turnmark u else u).cond = _
    rw [show (flagsOf f).turnmark = true from marked, if_pos rfl, turnmark, slips]
    rfl
  rw [receiverFrame_stages, fastCommands_act locked good, marks]
  refine (occur_rec .turnSlip none _).trans ?_
  rw [State.mapTiming_cond, cond]
  rfl

/-- No thing a frame brings about has the Timing Receiver's conditions occur. -/
theorem receiverCond_notActed {c : Cond} (h : c ∈ receiverConds) (a : FrameAct) : c.num ∉ (actConds a).map Cond.num := by
  simp only [receiverConds, List.mem_cons, List.not_mem_nil, or_false] at h
  obtain rfl | rfl | rfl := h <;> cases a <;> decide

/-- Settles O19: the Timing Receiver's block is a function of itself and the frame, and the rest of the frame keeps it. -/
theorem timingFrameCounts : Obligations.TimingFrameCounts := by
  refine ⟨fun f s0 => ?_, fun f s0 => ?_⟩
  · intro s
    have kept := timingFrame_kept f s
    have timing := timingFrame_timing f s
    obtain ⟨serial, counter, event, turn, qf, qt⟩ := s.timing.takes_numbers (frameGood f)
    obtain ⟨fixedSerial, fixedTurn, fixedFrom, fixedTo⟩ :=
      ((s.timing.appears.takes (frameGood f)).advance).commanded_fixed (fastCommands s.timing.link f)
    refine ⟨timingFrame f s, rfl, ?_, fun locked good => ?_, fun none => ?_, fun unmarked => ?_, ?_, ?_, ?_, ?_,
      congrArg FrontEnd.recs kept.front, kept.filt, kept.ped, kept.trim, kept.w, kept.fill, kept.ctl⟩ <;>
      rw [timing]
    · rw [Timing.received, fixedSerial, Timing.advance, serial]
    · exact Timing.received_act_fields locked good
    · rw [Timing.received_none none, Timing.commanded_event]
      exact (BitVec.add_zero _).trans event
    · have idle : (fastCommands s.timing.link f).turnmark = false := by
        rw [Bool.eq_false_iff]
        intro marked
        simp only [fastCommands, Bool.and_eq_true, decide_eq_true_eq] at marked
        exact unmarked ⟨marked.1.1, marked.1.2, marked.2⟩
      rw [Timing.received, (Timing.commanded_unmarked _ idle).1, Timing.advance, counter, turn]
    · rfl
    · rw [Timing.received, fixedTurn]
      exact turn
    · rw [Timing.received, fixedFrom]
      exact qf
    · rw [Timing.received, fixedTo]
      exact qt
  · intro s locked good marked aligned inTurn
    obtain ⟨-, -, -, acts, -⟩ := Timing.received_act_fields locked good
    obtain ⟨counter, nowAligned⟩ := acts marked
    have record := timingFrame_rec f s (receiverCond_notActed (c := .turnSlip) (by simp [receiverConds]))
    rw [← timingFrame_timing] at counter nowAligned
    refine ⟨timingFrame f s, rfl, counter, nowAligned, ?_, ?_⟩
    · exact (congrArg CondRec.latch record).trans
        (congrArg CondRec.latch (receiverFrame_turnSlip locked good marked aligned inTurn))
    · exact (congrArg CondRec.count record).trans
        (congrArg CondRec.count (receiverFrame_turnSlip locked good marked aligned inTurn))

end Sys2Proof.Machine
end


section
/-!
The link, the scan and the stall timer at a timing-link frame.
-/

namespace Sys2Proof.Machine

section

variable {f : Byte} {s : State}

theorem frameWhen_due {due : Bool} (h : due = true) : frameWhen due f s = timingFrame f s := if_pos h

theorem frameWhen_notDue {due : Bool} (h : due = false) : frameWhen due f s = s := if_neg (by simp [h])

theorem noCommands_accept (h : ¬(s.timing.link = .locked ∧ frameGood f = true)) :
    (fastCommands s.timing.link f).accept = false := by
  rw [fastCommands_none h]
  rfl

theorem Calm.records {s t : State} (h : Calm s t) : t.aq.records = s.aq.records := by rw [h.aq]

/-! ## Link lock and link loss (R24, R25) -/

/-- A frame whose flags do not act: the Timing Receiver's block is as the taking of the frame leaves it. -/
theorem Timing.received_none_fields {t : Timing} (h : ¬(t.link = .locked ∧ frameGood f = true)) :
    (t.received f).link = (t.appears.takes (frameGood f)).link ∧
      (t.received f).failCount = (t.appears.takes (frameGood f)).failCount ∧
      (t.received f).runCount = (t.appears.takes (frameGood f)).runCount ∧
      (t.received f).candidate = (t.appears.takes (frameGood f)).candidate ∧
      (t.received f).lastTaken = (t.appears.takes (frameGood f)).lastTaken ∧
      (t.received f).aligned = (t.appears.takes (frameGood f)).aligned ∧ (t.received f).event = t.event ∧
      (t.received f).serial = t.serial + 1 := by
  rw [Timing.received_none h]
  obtain ⟨link, failCount, runCount, candidate, lastTaken⟩ :=
    ((t.appears.takes (frameGood f)).advance).commanded_link noCommands
  obtain ⟨serial, -, event, -, -, -⟩ := t.takes_numbers (frameGood f)
  obtain ⟨fixedSerial, -, -, -⟩ := ((t.appears.takes (frameGood f)).advance).commanded_fixed noCommands
  have aligned := (Timing.commanded_unmarked (fc := noCommands) ((t.appears.takes (frameGood f)).advance) rfl).2
  have number := Timing.commanded_event noCommands ((t.appears.takes (frameGood f)).advance)
  refine ⟨link, failCount, runCount, candidate, lastTaken, aligned, ?_, ?_⟩
  · exact number.trans ((BitVec.add_zero _).trans event)
  · rw [fixedSerial, Timing.advance, serial]

theorem takes_seeking {t : Timing} (link : t.link = .seeking) (good : Bool) :
    t.takes good =
      if good then
        if 64 ≤ t.runCount + 1 then
          { t with lastTaken := t.candidate, runCount := 64, link := .locked, failCount := 0 }
        else { t with lastTaken := t.candidate, runCount := t.runCount + 1 }
      else { t with lastTaken := t.candidate, runCount := 0, candidate := t.candidate + 1 } := by
  cases good <;> simp [Timing.takes, link]

theorem takes_locked {t : Timing} (link : t.link = .locked) (good : Bool) :
    t.takes good =
      if good then { t with lastTaken := t.candidate, failCount := 0 }
      else if 8 ≤ t.failCount + 1 then
        { t with lastTaken := t.candidate, failCount := t.failCount + 1, link := .seeking, runCount := 0, aligned := false }
      else { t with lastTaken := t.candidate, failCount := t.failCount + 1 } := by
  cases good <;> simp [Timing.takes, link]

theorem badFrame_lost (h : 8 ≤ s.timing.failCount + 1) :
    badFrame s = occur .tlLoss none
      (enterSeeking (occur .tlCheck none (s.mapTiming fun t => { t with failCount := t.failCount + 1 }))) := by
  refine if_pos ?_
  show 8 ≤ (occur .tlCheck none (s.mapTiming fun t => { t with failCount := t.failCount + 1 })).timing.failCount
  rw [(occur_only _ _ _).timing]
  exact h

/-- The eighth failing frame of a row latches TL_CHECK and then TL_LOSS (R25). -/
theorem receiverFrame_lost (locked : s.timing.link = .locked) (seven : s.timing.failCount = 7) (bad : frameGood f = false) :
    (receiverFrame f s).cond = (s.cond.occur .tlCheck none).occur .tlLoss none := by
  have present : clockAppears s = s := by
    rw [clockAppears, clockPresent, decide_eq_true (by simp [locked]), if_pos rfl]
  have taken : takeFrame false s = badFrame (s.mapTiming fun t => { t with lastTaken := t.candidate }) := by
    simp [takeFrame, locked]
  have lost := badFrame_lost (s := s.mapTiming fun t => { t with lastTaken := t.candidate })
    (by rw [State.mapTiming_timing, seven])
  have unmarked : ∀ u : State, (commandFrame noCommands u).cond = u.cond := fun _ => rfl
  rw [receiverFrame_stages, fastCommands_none (by simp [bad]), unmarked, present, bad, taken]
  show (badFrame _).cond = _
  rw [lost, occur_cond, enterSeeking, State.mapTiming_cond, occur_cond]
  rfl

end

/-- Settles O20: the taking of a frame by the state of the link and the check. -/
theorem linkLocksAndLoses : Obligations.LinkLocksAndLoses := by
  refine ⟨?_, ?_, ?_, ?_, ?_⟩
  · intro f s0 s seeking run good
    have idle : ¬(s.timing.link = .locked ∧ frameGood f = true) := by simp [seeking]
    have due : lockDue f s = true := by simp [lockDue, seeking, run, good, Config.lockRun]
    have calm := timingFrame_calm f s (noCommands_accept idle)
    have timing := timingFrame_timing f s
    have taken : s.timing.appears.takes (frameGood f) = _ :=
      (congrArg _ (Timing.appears_present (by simp [seeking]))).trans (takes_seeking seeking _)
    obtain ⟨link, failCount, -, candidate, -, aligned, event, serial⟩ := Timing.received_none_fields idle
    rw [taken, good, if_pos rfl, if_pos (by simp [run])] at link failCount candidate aligned
    rw [← timing] at link failCount candidate aligned event serial
    refine ⟨timingFrame f s, congrArg _ (frameWhen_due due), link, failCount, candidate, event, aligned, serial,
      calm.records, ?_⟩
    · exact calm.sPer.trans (congrArg Clock.s (receiverFrame_clk_present f s (by simp [seeking])))
  · intro f s0 s locked seven bad
    have idle : ¬(s.timing.link = .locked ∧ frameGood f = true) := by simp [bad]
    have due : lossDue f s = true := by simp [lossDue, locked, seven, bad, Config.lossCount]
    have calm := timingFrame_calm f s (noCommands_accept idle)
    have timing := timingFrame_timing f s
    have taken : s.timing.appears.takes (frameGood f) = _ :=
      (congrArg _ (Timing.appears_present (by simp [locked]))).trans (takes_locked locked _)
    obtain ⟨link, -, runCount, candidate, -, aligned, event, serial⟩ := Timing.received_none_fields idle
    rw [taken, bad, if_neg Bool.false_ne_true, if_pos (by simp [seven])] at link runCount candidate aligned
    rw [← timing] at link runCount candidate aligned event serial
    have cond := receiverFrame_lost locked seven bad
    have loss : (timingFrame f s).cond.recs[(0 : Fin 25)] = s.cond.recs[(0 : Fin 25)].occur none := by
      refine (timingFrame_rec f s (receiverCond_notActed (c := .tlLoss) (by simp [receiverConds]))).trans ?_
      rw [cond]
      exact (CondTable.occur_rec .tlLoss none _).trans
        (congrArg (CondRec.occur · none) (CondTable.occur_rec_other (c := .tlCheck) (by decide)))
    have check : (timingFrame f s).cond.recs[(1 : Fin 25)] = s.cond.recs[(1 : Fin 25)].occur none := by
      refine (timingFrame_rec f s (receiverCond_notActed (c := .tlCheck) (by simp [receiverConds]))).trans ?_
      rw [cond]
      exact (CondTable.occur_rec_other (c := .tlLoss) (by decide)).trans (CondTable.occur_rec .tlCheck none _)
    refine ⟨timingFrame f s, congrArg _ (frameWhen_due due), link, runCount, aligned, candidate, event, serial,
      calm.records, ?_, ?_, ?_, ?_⟩
    · exact congrArg CondRec.latch loss
    · exact congrArg CondRec.count loss
    · exact congrArg CondRec.latch check
    · exact congrArg CondRec.count check
  · intro f s0 s seeking more
    have idle : ¬(s.timing.link = .locked ∧ frameGood f = true) := by simp [seeking]
    have taken : s.timing.appears.takes (frameGood f) = _ :=
      (congrArg _ (Timing.appears_present (by simp [seeking]))).trans (takes_seeking seeking _)
    obtain ⟨link, -, runCount, candidate, lastTaken, aligned, -, -⟩ := Timing.received_none_fields idle
    rw [taken] at link runCount candidate lastTaken aligned
    refine ⟨timingFrame f s, rfl, ?_⟩
    rw [timingFrame_timing, link, runCount, candidate, lastTaken, aligned]
    cases good : frameGood f with
    | true =>
      have notYet : ¬64 ≤ s.timing.runCount + 1 := by
        have := more.resolve_right (by simp [good])
        omega
      simp only [if_true, if_neg notYet]
      exact ⟨seeking, trivial, trivial, trivial, trivial⟩
    | false => exact ⟨seeking, rfl, rfl, rfl, rfl⟩
  · intro f s0 s locked
    refine ⟨timingFrame f s, rfl, ?_⟩
    rw [timingFrame_timing, Timing.received]
    obtain ⟨-, -, -, candidate, lastTaken⟩ :=
      ((s.timing.appears.takes (frameGood f)).advance).commanded_link (fastCommands s.timing.link f)
    rw [candidate, lastTaken, Timing.advance, Timing.appears_present (by simp [locked]), takes_locked locked]
    split
    · exact ⟨rfl, rfl⟩
    · split <;> exact ⟨rfl, rfl⟩
  · intro f s0 s absent
    have idle : ¬(s.timing.link = .locked ∧ frameGood f = true) := by simp [absent]
    have appears : s.timing.appears = s.timing.seeks := by simp [Timing.appears, absent]
    have taken : s.timing.appears.takes (frameGood f) = _ := (congrArg _ appears).trans (takes_seeking rfl _)
    obtain ⟨link, -, runCount, candidate, lastTaken, aligned, -, -⟩ := Timing.received_none_fields idle
    rw [taken] at link runCount candidate lastTaken aligned
    refine ⟨timingFrame f s, rfl, ?_⟩
    have clk : (timingFrame f s).clk = { s.clk with state := .acquiring, lockCount := 0 } := by
      have missing : clockPresent s = false := decide_eq_false (by simp [absent])
      rw [timingFrame_clk, receiverFrame_clk, clockAppears, missing, if_neg Bool.false_ne_true]
      rfl
    rw [timingFrame_timing, link, runCount, candidate, lastTaken, aligned, clk]
    cases frameGood f <;> exact ⟨rfl, rfl, rfl, rfl, rfl, rfl⟩

/-! ## The stall timer (R159) -/

/-- What a crossing arrival that finds the transmitter waiting looks at and moves: timer, mark, limit and RL_STALL. -/
structure StallView where
  timer : Nat
  mark : Bool
  limit : Nat
  record : CondRec

/-- The stall timer of a state. -/
def stallView (s : State) : StallView :=
  { timer := s.tx.stallTimer, mark := s.tx.stallMark, limit := s.tx.stallLimit, record := s.cond.recs[Cond.rlStall.num] }

/-- The crossing arrival latches RL_STALL. -/
def StallView.fires (v : StallView) : Bool := decide (bump (v.limit * 256) v.timer = v.limit * 256) && !v.mark

/-- The stall timer after a crossing arrival that finds the transmitter waiting. -/
def StallView.tick (v : StallView) : StallView :=
  { v with timer := bump (v.limit * 256) v.timer, mark := v.mark || v.fires,
           record := if v.fires then v.record.occur none else v.record }

theorem occurIf_rec (b : Bool) (c : Cond) (ev : Option EventNum) (s : State) :
    (occurIf b c ev s).cond.recs[c.num] = if b then s.cond.recs[c.num].occur ev else s.cond.recs[c.num] := by
  cases b
  · rfl
  · exact occur_rec c ev s

theorem stallTick_view (s : State) : stallView (stallTick true s) = (stallView s).tick := by
  have tx : (stallTick true s).tx.stallTimer = bump (s.tx.stallLimit * 256) s.tx.stallTimer ∧
      (stallTick true s).tx.stallMark = (s.tx.stallMark || (stallView s).fires) ∧
      (stallTick true s).tx.stallLimit = s.tx.stallLimit := by
    rw [stallTick, (occurIf_only _ _ _ _).tx]
    exact ⟨rfl, rfl, rfl⟩
  obtain ⟨timer, mark, limit⟩ := tx
  have record : (stallTick true s).cond.recs[Cond.rlStall.num] =
      if (stallView s).fires then s.cond.recs[Cond.rlStall.num].occur none else s.cond.recs[Cond.rlStall.num] :=
    occurIf_rec _ .rlStall none _
  rw [stallView, timer, mark, limit, record]
  rfl

theorem timingFrame_stall {f : Byte} {s : State} (waits : waiting s = true) :
    stallView (timingFrame f s) = (stallView s).tick := by
  have found : stallView (receiverFrame f s) = stallView s := by
    rw [stallView, (receiverFrame_frame f s).tx, receiverFrame_conds f s Cond.rlStall.num (by decide)]
    rfl
  rw [← found]
  refine foldActs_once (frameContext f s) stallView StallView.tick .stall _ (actOrder_nodup _ _) (mem_actOrder _ _ _)
    (fun t => ?_) (fun a other t => ?_) (receiverFrame f s)
  · have finds : ((frameContext f s).wasWaiting || (waiting t && Config.stallAfterAccept (frameContext f s).index)) = true := by
      rw [show (frameContext f s).wasWaiting = true from waits, Bool.true_or]
    rw [frameAct, finds]
    exact stallTick_view t
  · obtain ⟨timer, mark⟩ := frameAct_stall (frameContext f s) t other
    have record := frameAct_conds (frameContext f s) a t Cond.rlStall.num (by revert other; cases a <;> decide)
    rw [stallView, timer, mark, (frameAct_kept _ a t).stallLimit, record]
    rfl

/-- Settles O33: the crossing arrival that brings the timer to its top, or finds it there, and the episode mark. -/
theorem stallTimeoutLatches : Obligations.StallTimeoutLatches := by
  intro f s0 s words noCredit
  have waits : waiting s = true := decide_eq_true ⟨Nat.sub_pos_of_lt words, noCredit⟩
  have view := timingFrame_stall (f := f) waits
  have timer := congrArg StallView.timer view
  have mark := congrArg StallView.mark view
  have record := congrArg StallView.record view
  have kept := timingFrame_kept f s
  refine ⟨fun clear atTop => ?_, fun marked => ⟨?_, timingFrame f s, rfl, ?_, ?_, ?_⟩⟩
  · have top : bump (s.tx.stallLimit * 256) s.tx.stallTimer = s.tx.stallLimit * 256 := by
      unfold bump
      split <;> omega
    have fires : (stallView s).fires = true := by
      rw [StallView.fires]
      show (decide (bump (s.tx.stallLimit * 256) s.tx.stallTimer = s.tx.stallLimit * 256) && !s.tx.stallMark) = true
      rw [decide_eq_true top, clear]
      rfl
    have due : stallDue s = true := by
      rw [stallDue, waits, clear]
      exact (congrArg (· && true) (decide_eq_true top)).trans rfl
    refine ⟨timingFrame f s, congrArg _ (frameWhen_due due), timer.trans top, ?_, ?_, ?_, kept.credits.trans noCredit,
      kept.begun⟩
    · exact mark.trans ((congrArg (s.tx.stallMark || ·) fires).trans (Bool.or_true _))
    · exact (congrArg CondRec.latch record).trans (congrArg CondRec.latch (if_pos fires))
    · exact (congrArg CondRec.count record).trans (congrArg CondRec.count (if_pos fires))
  · have idle : stallDue s = false := by rw [stallDue, marked, Bool.not_true, Bool.and_false]
    exact congrArg _ (frameWhen_notDue idle)
  · exact mark.trans ((congrArg (· || (stallView s).fires) marked).trans (Bool.true_or _))
  · exact timer
  · have quiet : (stallView s).fires = false := by
      show (_ && !s.tx.stallMark) = false
      rw [marked, Bool.not_true, Bool.and_false]
    exact record.trans (if_neg (by simp [quiet]))

end Sys2Proof.Machine
end


section
/-!
The clock's lock gained and lost, and the scan of the Slow Integrator Monitor.
-/

namespace Sys2Proof.Machine

/-! ## Class 3 under occurrences -/

theorem raised_iff (t : CondTable) (k : CondClass) :
    t.raised k = true ↔ ∃ i : Fin 25, t.recs[i].latch = true ∧ t.recs[i].cls = k := by
  simp [CondTable.raised]

/-- An occurrence clears no class. -/
theorem class3_occur {s : State} (c : Cond) (ev : Option EventNum) (h : class3 s = true) : class3 (occur c ev s) = true := by
  obtain ⟨i, latch, cls⟩ := (raised_iff s.cond .class3).1 h
  refine (raised_iff _ _).2 ⟨i, ?_⟩
  by_cases same : i = c.num
  · subst same
    rw [occur_rec]
    exact ⟨rfl, cls⟩
  · rw [occur_rec_other c ev s i same]
    exact ⟨latch, cls⟩

/-- An occurrence that leaves class 3 as it was leaves acquisition. -/
theorem occur_acq {s : State} {c : Cond} {ev : Option EventNum} (h : class3 (occur c ev s) = class3 s) :
    (occur c ev s).acq = s.acq := by
  have same : class3 (s.mapCond (CondTable.occur c ev)) = class3 s := by
    rw [← h, class3, class3, occur_cond]
    rfl
  exact (congrArg State.acq (changeConds_same _ s same)).trans (s.mapCond_acq _)

/-! ## The departure of the clock (R37) -/

/-- The departure at every block but the Trim Engine. -/
def departing (s : State) : State := setScan .idle (setInjState .disarmed (acqDeparture (emptyCounts s)))

theorem clockDeparture_stages (s : State) : clockDeparture s = trimDeparture (departing s) := rfl

theorem departing_eq (s : State) :
    departing s = { s with
      acq := { s.acq with state := if s.acq.state = .running then .priming else s.acq.state }
      pipe := (emptyCounts s).pipe
      inj := { s.inj with state := .disarmed }
      integ := { s.integ with scan := .idle } } := by
  by_cases running : s.acq.state = .running
  · have departed : acqDeparture (emptyCounts s) = setAcq .priming (emptyCounts s) := by
      rw [acqDeparture, show (emptyCounts s).acq.state = .running from running]
      rfl
    rw [departing, departed, if_pos running]
    rfl
  · rw [departing, acqDeparture_of_ne (s := emptyCounts s) running, if_neg running]
    rfl

/-- What the departure leaves, taken after occurrences on a state that differs in timing and clock alone. -/
theorem departing_departed {s r u : State} (stopped : r = { s with timing := r.timing, clk := r.clk })
    (only : OnlyConditions r u) (steady : class3 u = class3 s → u.acq = s.acq) : Departed s (departing u) := by
  have class3Kept : class3 (departing u) = class3 u := by
    rw [departing_eq]
    rfl
  refine ⟨?_, fun same => ?_, ?_⟩
  · have pipe : u.pipe = s.pipe := by rw [only.pipe, stopped]
    rw [departing_eq]
    show (emptyCounts u).pipe = (emptyCounts s).pipe
    rw [emptyCounts, emptyCounts, State.mapPipe_pipe, State.mapPipe_pipe, pipe]
  · have acq := steady (class3Kept ▸ same)
    rw [departing_eq, acq]
  · rw [departing_eq]
    have inj := only.inj
    have integ := only.integ
    have front := only.front
    have builder := only.builder
    have aq := only.aq
    have tx := only.tx
    have trim := only.trim
    rw [stopped] at inj integ front builder aq tx trim
    refine ⟨congrArg (fun i : Injector => { i with state := .disarmed }) inj,
      congrArg (fun i : Integrator => { i with scan := .idle }) integ, front, ?_, ?_, ?_, builder,
      (congrArg AcceptQueue.records aq :), (congrArg AcceptQueue.snaps aq :), (congrArg Transmitter.buffer tx :),
      congrArg Trim.gains trim⟩
    · exact only.ped.trans (by rw [stopped])
    · exact only.filt.trans (by rw [stopped])
    · exact only.list.trans (by rw [stopped])

theorem departing_trim (s : State) : (departing s).trim = s.trim := by rw [departing_eq]

theorem departing_ctl (s : State) : (departing s).ctl = s.ctl := by rw [departing_eq]

theorem departing_cond (s : State) : (departing s).cond = s.cond := by rw [departing_eq]

theorem clockDeparture_short {s : State} (idle : s.trim.engine = .idle) : clockDeparture s = departing s :=
  clockDeparture_idle idle

/-- The departure in manual trim mode: the settle count is 64 and a measurement is discarded (R96). -/
theorem clockDeparture_manual {s : State} {m : ManualTrim} (manual : s.trim.engine = .manual m) :
    clockDeparture s =
      if m.measuring.isSome then finishTrms .badState [] (setManual { m with settle := 64, measuring := none } (departing s))
      else setManual { m with settle := 64, measuring := none } (departing s) := by
  rw [clockDeparture_stages, trimDeparture, departing_trim, manual]

theorem finishTrms_trms {s : State} {tag : Byte} (st : Status) (p : List Byte) (h : s.ctl.executing = .trms tag) :
    finishTrms st p s = answer tag st p s := by rw [finishTrms, h]

/-- R96 at a departure from a state that differs in timing, clock and conditions. -/
theorem clockDeparture_manual_spec {s r u : State} {m : ManualTrim} (manual : s.trim.engine = .manual m)
    (stopped : r = { s with timing := r.timing, clk := r.clk }) (only : OnlyConditions r u) :
    (clockDeparture u).trim = { s.trim with engine := .manual { m with settle := 64, measuring := none } } ∧
      (∀ tag : Byte, s.ctl.executing = .trms tag → m.measuring ≠ none → Replies tag .badState [] s (clockDeparture u)) ∧
      (m.measuring = none → (clockDeparture u).ctl = s.ctl) ∧ (clockDeparture u).front = s.front ∧
      (clockDeparture u).ped = s.ped := by
  have trim : u.trim = s.trim := only.trim.trans (by rw [stopped])
  have ctl : u.ctl = s.ctl := only.ctl.trans (by rw [stopped])
  have front : u.front = s.front := only.front.trans (by rw [stopped])
  have ped : u.ped = s.ped := only.ped.trans (by rw [stopped])
  rw [clockDeparture_manual (by rw [trim]; exact manual)]
  let v := setManual { m with settle := 64, measuring := none } (departing u)
  have vTrim : v.trim = { s.trim with engine := .manual { m with settle := 64, measuring := none } } := by
    show ({ (departing u).trim with engine := .manual { m with settle := 64, measuring := none } } : Trim) = _
    rw [departing_trim, trim]
  have vCtl : v.ctl = s.ctl := (departing_ctl u).trans ctl
  have vFront : v.front = s.front := by
    show (departing u).front = _
    rw [departing_eq]
    exact front
  have vPed : v.ped = s.ped := by
    show (departing u).ped = _
    rw [departing_eq]
    exact ped
  cases measuring : m.measuring with
  | none => exact ⟨vTrim, fun _ _ some => absurd rfl some, fun _ => vCtl, vFront, vPed⟩
  | some q =>
    obtain ⟨g, finished⟩ := finishTrms_ctl .badState [] v
    refine ⟨?_, fun tag executing _ => ?_, fun none => (by cases none), ?_, ?_⟩
    · exact (congrArg State.trim finished).trans vTrim
    · show Replies tag .badState [] s (finishTrms .badState [] v)
      rw [finishTrms_trms .badState [] ((congrArg Control.executing vCtl).trans executing)]
      exact answer_replies vCtl
    · exact (congrArg State.front finished).trans vFront
    · exact (congrArg State.ped finished).trans vPed

/-! ## Phase slip and loss of the crossing clock (R23, R36) -/

/-- The synthesiser in a state, with nothing counted. -/
def stopClock (x : ClockState) (s : State) : State := s.mapClk fun c => { c with state := x, lockCount := 0 }

theorem phaseSlip_locked {s : State} (locked : s.clk.state = .locked) :
    phaseSlip s = clockDeparture (occur .clkUnlock none (stopClock .acquiring s)) := by
  simp only [phaseSlip, locked]
  rfl

/-- The link in NO_SIGNAL and the synthesiser UNLOCKED. -/
def loseSignal (s : State) : State :=
  stopClock .unlocked (s.mapTiming fun t => { t with link := .noSignal, aligned := false })

theorem clockLoss_present {s : State} (present : s.timing.link ≠ .noSignal) :
    clockLoss s =
      departIfLocked (decide (s.clk.state = .locked))
        (occurIf (decide (s.clk.state = .locked)) .clkUnlock none
          (occurIf (decide (s.timing.link = .locked)) .tlLoss none (loseSignal s))) :=
  if_pos (decide_eq_true present)

theorem clockLoss_locked {s : State} (present : s.timing.link ≠ .noSignal) (locked : s.clk.state = .locked) :
    clockLoss s = clockDeparture (occur .clkUnlock none
      (occurIf (decide (s.timing.link = .locked)) .tlLoss none (loseSignal s))) := by
  rw [clockLoss_present present, decide_eq_true locked]
  rfl

theorem clockLoss_unlocked {s : State} (present : s.timing.link ≠ .noSignal) (other : s.clk.state ≠ .locked) :
    clockLoss s = occurIf (decide (s.timing.link = .locked)) .tlLoss none (loseSignal s) := by
  rw [clockLoss_present present, decide_eq_false other]
  rfl

/-- Class 3 as it was after two occurrences was so after the first, and acquisition is as before. -/
theorem occur_occurIf_acq {s : State} {b : Bool} {c d : Cond}
    (h : class3 (occur c none (occurIf b d none s)) = class3 s) : (occur c none (occurIf b d none s)).acq = s.acq := by
  have first : class3 (occurIf b d none s) = class3 s := by
    cases b with
    | false => rfl
    | true =>
      cases before : class3 s with
      | true => exact class3_occur d none before
      | false =>
        rw [before] at h
        exact Bool.eq_false_iff.2 fun raised => Bool.noConfusion ((class3_occur c none raised).symm.trans h)
  have last := occur_acq (h.trans first.symm)
  rw [last]
  cases b with
  | false => rfl
  | true => exact occur_acq first

theorem loss_only (b : Bool) (s : State) :
    OnlyConditions (loseSignal s) (occur .clkUnlock none (occurIf b .tlLoss none (loseSignal s))) :=
  (occurIf_only _ _ _ _).trans (occur_only _ _ _)

/-- The record of TL_LOSS after the loss of the clock (R23). -/
theorem loss_tlLoss (b : Bool) (s : State) :
    (occur .clkUnlock none (occurIf b .tlLoss none (loseSignal s))).cond.recs[Cond.tlLoss.num] =
      if b then s.cond.recs[Cond.tlLoss.num].occur none else s.cond.recs[Cond.tlLoss.num] :=
  (occur_rec_other .clkUnlock none _ Cond.tlLoss.num (by decide)).trans (occurIf_rec b .tlLoss none (loseSignal s))

end Sys2Proof.Machine

namespace Sys2Proof.Machine

/-- Settles O23: lock at the 2048th crossing, and the departure at a phase slip and at the loss of the crossing clock. -/
theorem clockLockComesAndGoes : Obligations.ClockLockComesAndGoes := by
  refine ⟨?_, ?_, ?_, ?_⟩
  · intro f s0 s present acquiring count
    have kept := timingFrame_kept f s
    have due : clockLockDue s = true := by
      simp [clockLockDue, clockPresent, present, acquiring, count, Config.lockCrossings]
    refine ⟨timingFrame f s, congrArg _ (frameWhen_due due), ?_, kept.fill, kept.w, ?_⟩
    · rw [timingFrame_clk, receiverFrame_clk_present f s present, clockPresent, decide_eq_true present]
      simp [Clock.tick, acquiring, count]
    · obtain ⟨serial, -⟩ := s.timing.takes_numbers (frameGood f)
      obtain ⟨fixed, -⟩ := ((s.timing.appears.takes (frameGood f)).advance).commanded_fixed (fastCommands s.timing.link f)
      rw [timingFrame_timing, Timing.received, fixed, Timing.advance, serial]
  · intro s0 s
    refine ⟨fun locked idle => ?_, fun acquiring => ?_⟩
    · have only := occur_only .clkUnlock none (stopClock .acquiring s)
      have short : (occur .clkUnlock none (stopClock .acquiring s)).trim.engine = .idle := by
        rw [only.trim]
        exact idle
      have record := occur_rec .clkUnlock none (stopClock .acquiring s)
      refine ⟨departing (occur .clkUnlock none (stopClock .acquiring s)),
        congrArg _ ((phaseSlip_locked locked).trans (clockDeparture_short short)), ?_, ?_, ?_, ?_,
        departing_departed (r := stopClock .acquiring s) rfl only occur_acq⟩
      · rw [departing_eq]
        exact only.clk
      · rw [departing_eq]
        exact only.timing
      · rw [departing_cond]
        exact congrArg CondRec.latch record
      · rw [departing_cond]
        exact congrArg CondRec.count record
    · show Host.Outcome.next (phaseSlip s) = _
      simp only [phaseSlip, acquiring]
      rfl
  · intro s0 s present
    refine ⟨fun locked idle => ?_, fun acquiring linked => ?_, fun acquiring seeking => ?_⟩
    · let b := decide (s.timing.link = .locked)
      have only := loss_only b s
      have short : (occur .clkUnlock none (occurIf b .tlLoss none (loseSignal s))).trim.engine = .idle := by
        rw [only.trim]
        exact idle
      refine ⟨departing (occur .clkUnlock none (occurIf b .tlLoss none (loseSignal s))),
        congrArg _ ((clockLoss_locked present locked).trans (clockDeparture_short short)), ?_, ?_, fun linked => ?_,
        fun seeking => ?_, ?_, departing_departed (r := loseSignal s) rfl only occur_occurIf_acq⟩
      · rw [departing_eq]
        exact only.timing
      · rw [departing_eq]
        exact only.clk
      · rw [departing_cond]
        exact congrArg CondRec.latch ((loss_tlLoss b s).trans (if_pos (decide_eq_true linked)))
      · rw [departing_cond]
        exact (loss_tlLoss b s).trans (if_neg (by simp [b, seeking]))
      · rw [departing_cond]
        exact congrArg CondRec.latch (occur_rec .clkUnlock none (occurIf b .tlLoss none (loseSignal s)))
    · have lost : clockLoss s = occur .tlLoss none (loseSignal s) := by
        rw [clockLoss_unlocked present (by simp [acquiring]), decide_eq_true linked]
        rfl
      have only := occur_only .tlLoss none (loseSignal s)
      have record := occur_rec .tlLoss none (loseSignal s)
      refine ⟨occur .tlLoss none (loseSignal s), congrArg Host.Outcome.next lost, rfl, ?_, ?_, ?_, only.pipe, only.inj, only.integ, only.trim, only.ctl⟩
      · exact congrArg CondRec.latch record
      · exact congrArg CondRec.count record
      · exact occur_rec_other .tlLoss none (loseSignal s) 3 (by decide)
    · show Host.Outcome.next (clockLoss s) = _
      rw [clockLoss_unlocked present (by simp [acquiring]), decide_eq_false (by simp [seeking])]
      rfl
  · intro s0 m s locked manual c slips
    rcases slips with rfl | ⟨rfl, present⟩
    · exact ⟨clockDeparture _, congrArg Host.Outcome.next (phaseSlip_locked locked), clockDeparture_manual_spec (r := stopClock .acquiring s) manual rfl
        (occur_only _ _ _)⟩
    · exact ⟨clockDeparture _, congrArg Host.Outcome.next (clockLoss_locked present locked), clockDeparture_manual_spec (r := loseSignal s) manual rfl
        (loss_only _ s)⟩

/-! ## The scan of the Slow Integrator Monitor (R176, R177) -/

/-- What a crossing arrival at the monitor looks at and moves: its block and its three condition records. -/
structure ScanView where
  integ : Integrator
  overwrite : CondRec
  overflow : CondRec
  high : CondRec

/-- The scan of a state. -/
def scanView (s : State) : ScanView :=
  { integ := s.integ, overwrite := s.cond.recs[Cond.intOverwrite.num], overflow := s.cond.recs[Cond.intOvf.num],
    high := s.cond.recs[Cond.intHigh.num] }

/-- An occurrence at a record, where there is one. -/
def CondRec.occurIf (b : Bool) (r : CondRec) : CondRec := if b then r.occur none else r

theorem CondRec.occurIf_latch (b : Bool) (r : CondRec) : (r.occurIf b).latch = (r.latch || b) := by
  cases b
  · exact (Bool.or_false _).symm
  · exact (Bool.or_true _).symm

/-- The scan after its gate on a channel has ended. -/
def ScanView.read (c : Chan) (v : ScanView) : ScanView :=
  { integ := v.integ.tick,
    overwrite := v.overwrite.occurIf (decide (v.integ.readings[c].status = .new)),
    overflow := v.overflow.occurIf (decide (v.integ.counter = Config.measureTop)),
    high := v.high.occurIf (decide (v.integ.limit < v.integ.counter)) }

/-- The scan after a crossing arrival. -/
def ScanView.tick (v : ScanView) : ScanView :=
  match v.integ.scan with
  | .gate c n => if n ≤ 1 then v.read c else { v with integ := v.integ.tick }
  | .idle | .settle _ _ => { v with integ := v.integ.tick }

theorem occurIf_rec_other {c : Cond} {i : Fin 25} (b : Bool) (s : State) (h : i ≠ c.num) :
    (occurIf b c none s).cond.recs[i] = s.cond.recs[i] := by
  cases b
  · rfl
  · exact occur_rec_other c none s i h

theorem expireGate_recs (c : Chan) (s : State) :
    (expireGate c s).cond.recs[Cond.intOverwrite.num] =
        s.cond.recs[Cond.intOverwrite.num].occurIf (decide (s.integ.readings[c].status = .new)) ∧
      (expireGate c s).cond.recs[Cond.intOvf.num] =
        s.cond.recs[Cond.intOvf.num].occurIf (decide (s.integ.counter = Config.measureTop)) ∧
      (expireGate c s).cond.recs[Cond.intHigh.num] =
        s.cond.recs[Cond.intHigh.num].occurIf (decide (s.integ.limit < s.integ.counter)) := by
  rw [expireGate_stages]
  refine ⟨?_, ?_, ?_⟩
  · exact (occurIf_rec_other _ _ (by decide)).trans ((occurIf_rec_other _ _ (by decide)).trans (occurIf_rec _ _ none _))
  · exact (occurIf_rec_other _ _ (by decide)).trans ((occurIf_rec _ _ none _).trans
      (congrArg (CondRec.occurIf _) (occurIf_rec_other _ _ (by decide))))
  · exact (occurIf_rec _ _ none _).trans (congrArg (CondRec.occurIf _)
      ((occurIf_rec_other _ _ (by decide)).trans (occurIf_rec_other _ _ (by decide))))

theorem scanTick_view (s : State) : scanView (scanTick s) = (scanView s).tick := by
  have integ := scanTick_integ (s := s)
  have steady : (scanTick s).cond = s.cond → scanView (scanTick s) = { scanView s with integ := s.integ.tick } := by
    intro cond
    rw [scanView, integ, cond]
    rfl
  cases scan : s.integ.scan with
  | idle =>
    have tick : (scanView s).tick = { scanView s with integ := s.integ.tick } := by
      simp only [ScanView.tick, scanView, scan]
    exact (steady (by simp only [scanTick, scan])).trans tick.symm
  | settle c n =>
    have tick : (scanView s).tick = { scanView s with integ := s.integ.tick } := by
      simp only [ScanView.tick, scanView, scan]
    refine (steady ?_).trans tick.symm
    simp only [scanTick, scan]
    split <;> rfl
  | gate c n =>
    by_cases last : n ≤ 1
    · obtain ⟨overwrite, overflow, high⟩ := expireGate_recs c s
      have ends : scanTick s = expireGate c s := by simp only [scanTick, scan, if_pos last]
      rw [ends] at integ ⊢
      rw [scanView, integ, overwrite, overflow, high]
      simp only [ScanView.tick, scanView, scan, if_pos last]
      rfl
    · have counts : (scanTick s).cond = s.cond := by
        simp only [scanTick, scan, if_neg last]
        rfl
      refine (steady counts).trans ?_
      simp only [ScanView.tick, scanView, scan, if_neg last]

theorem timingFrame_scan (f : Byte) (s : State) : scanView (timingFrame f s) = (scanView s).tick := by
  have found : scanView (receiverFrame f s) = scanView s := by
    rw [scanView, receiverFrame_integ, receiverFrame_conds f s Cond.intOverwrite.num (by decide),
      receiverFrame_conds f s Cond.intOvf.num (by decide), receiverFrame_conds f s Cond.intHigh.num (by decide)]
    rfl
  rw [← found]
  refine foldActs_once (frameContext f s) scanView ScanView.tick .gate _ (actOrder_nodup _ _) (mem_actOrder _ _ _)
    scanTick_view (fun a other t => ?_) (receiverFrame f s)
  have records := frameAct_conds (frameContext f s) a t
  have none : ∀ i ∈ [Cond.intOverwrite.num, Cond.intOvf.num, Cond.intHigh.num], i ∉ (actConds a).map Cond.num := by
    revert other
    cases a <;> decide
  rw [scanView, frameAct_integ _ _ other, records _ (none _ (by simp)), records _ (none _ (by simp)),
    records _ (none _ (by simp))]
  rfl

theorem timingFrame_serial (f : Byte) (s : State) : (timingFrame f s).timing.serial = s.timing.serial + 1 := by
  obtain ⟨serial, -⟩ := s.timing.takes_numbers (frameGood f)
  obtain ⟨fixed, -⟩ := ((s.timing.appears.takes (frameGood f)).advance).commanded_fixed (fastCommands s.timing.link f)
  rw [timingFrame_timing, Timing.received, fixed, Timing.advance, serial]

theorem Integrator.tick_settled {i : Integrator} {c : Chan} (scan : i.scan = .settle c 1) :
    i.tick = { i with counter := 0, scan := .gate c i.gateLength } := by
  simp [Integrator.tick, scan]

theorem Integrator.tick_read {i : Integrator} {c : Chan} (scan : i.scan = .gate c 1) :
    i.tick = { i with readings := put i.readings c (newReading i i.readings[c]) }.moveOn c := by
  simp [Integrator.tick, scan]

/-- The scan's next channel, or its end, moves nothing but scan and pass. -/
theorem Integrator.moveOn_kept (c : Chan) (i : Integrator) :
    (i.moveOn c).readings = i.readings ∧ (i.moveOn c).limit = i.limit ∧ (i.moveOn c).settings = i.settings := by
  unfold Integrator.moveOn
  split
  · exact ⟨rfl, rfl, rfl⟩
  · split <;> exact ⟨rfl, rfl, rfl⟩

theorem Integrator.moveOn_next {c : Chan} {i : Integrator} (h : c < i.endChan) :
    i.moveOn c = { i with scan := settleOn (c + 1) } := if_pos h

theorem Integrator.moveOn_last {c : Chan} {i : Integrator} (h : c = i.endChan) :
    i.moveOn c = match i.mode with
      | .single => { i with scan := .idle }
      | .continuous => { i with scan := settleOn i.startChan, pass := i.pass + 1 } :=
  if_neg (by rw [h]; exact lt_irrefl _)

/-- Settles O24: the monitor's block and condition records after a crossing arrival, by the state of the scan. -/
theorem scanSettlesGatesAndReads : Obligations.ScanSettlesGatesAndReads := by
  refine ⟨⟨?_, ?_, ?_⟩, ?_⟩
  · intro f s0 c s settle
    have due : scanSettleDue s = true := by simp [scanSettleDue, settle]
    exact ⟨timingFrame f s, congrArg _ (frameWhen_due due), (timingFrame_integ f s).trans (Integrator.tick_settled settle),
      timingFrame_serial f s⟩
  · intro s0 c d n s gate
    have pulse : converterPulse c s =
        if d = c then s.mapInteg fun i => { i with counter := bump Config.measureTop i.counter } else s := by
      simp only [converterPulse, gate]
    refine (congrArg Host.Outcome.next pulse).trans ?_
    by_cases same : c = d
    · rw [if_pos same, if_pos same.symm]
      rfl
    · rw [if_neg same, if_neg (Ne.symm same)]
  · intro s0 c d n s away
    show Host.Outcome.next (converterPulse c s) = _
    rcases away with scan | scan <;> simp only [converterPulse, scan]
  · intro f s0 c s gate _
    have due : gateDue s = true := by simp [gateDue, gate]
    have view := timingFrame_scan f s
    have reads : (scanView s).tick = (scanView s).read c := by simp [ScanView.tick, scanView, gate]
    rw [reads] at view
    have integ := (timingFrame_integ f s).trans (Integrator.tick_read gate)
    obtain ⟨readings, limit, settings⟩ :=
      Integrator.moveOn_kept c { s.integ with readings := put s.integ.readings c (newReading s.integ s.integ.readings[c]) }
    rw [← integ] at readings limit settings
    refine ⟨timingFrame f s, congrArg _ (frameWhen_due due), fun d => ?_, fun more => ?_, fun last single => ?_,
      fun last continuous => ?_, limit, settings, ?_, ?_, ?_⟩
    · rw [readings, getElem_put]
      rfl
    · rw [integ.trans (Integrator.moveOn_next more)]
      exact ⟨rfl, rfl⟩
    · rw [integ.trans (Integrator.moveOn_last last)]
      simp only [single]
      exact ⟨trivial, trivial⟩
    · rw [integ.trans (Integrator.moveOn_last last)]
      simp only [continuous]
      exact ⟨rfl, trivial⟩
    · exact (congrArg (fun v => v.overwrite.latch) view).trans (CondRec.occurIf_latch _ _)
    · exact (congrArg (fun v => v.overflow.latch) view).trans (CondRec.occurIf_latch _ _)
    · exact (congrArg (fun v => v.high.latch) view).trans (CondRec.occurIf_latch _ _)

end Sys2Proof.Machine
end


section
/-!
Pulses at a timing-link frame: expiry, firing and request, each a function of the injector, the pipeline and the three conditions
of chapter 9, in whatever order the frame brings them about.
-/

namespace Sys2Proof.Machine

/-! ## What a frame does to the pulses -/

/-- What the pulses' part of a frame looks at and moves. -/
structure PulseView where
  inj : Injector
  pipe : Pipeline
  now : Serial
  back : Serial
  sPer : Nat
  counters : Counters
  missed : CondRec
  overlap : CondRec
  listFull : CondRec

/-- The pulses of a state. -/
def pulseView (s : State) : PulseView :=
  { inj := s.inj, pipe := s.pipe, now := s.timing.serial, back := lookBack s.acq, sPer := s.clk.s, counters := s.cond.counters,
    missed := s.cond.recs[Cond.calMissed.num], overlap := s.cond.recs[Cond.calOverlap.num],
    listFull := s.cond.recs[Cond.calListFull.num] }

namespace PulseView

/-- The pending records that the crossing arrival expires. -/
def gone (v : PulseView) : List Pulse := v.inj.pending.filter (expired v.back v.now)

/-- The injector without them. -/
def keep (v : PulseView) : PulseView :=
  { v with inj := { v.inj with pending := v.inj.pending.filter fun p => !expired v.back v.now p } }

/-- One record missed. -/
def miss (v : PulseView) : PulseView :=
  { v with counters := { v.counters with missed := v.counters.missed + 1 }, missed := v.missed.occur none }

/-- The expiry of pending records (R171). -/
def expire (v : PulseView) : PulseView := v.gone.foldl (fun v _ => v.miss) v.keep

/-- The pipeline with the INJ counts of the masked channels set (R9). -/
def marked (v : PulseView) : Pipeline :=
  { v.pipe with
    chans := tab fun c =>
      if v.inj.mask.getLsbD c.val then { v.pipe.chans[c] with injCount := 4 * v.sPer } else v.pipe.chans[c] }

/-- A firing (R168). -/
def fire (k : Nat) (v : PulseView) : PulseView :=
  { v with
    inj := { v.inj with
      driven := v.inj.driven ++ [{ serial := v.now, mask := v.inj.mask, amplitude := v.inj.amplitude }]
      pending := if decide (8 ≤ v.inj.pending.length) then v.inj.pending
        else v.inj.pending ++ [{ serial := v.now, train := v.inj.train, index := k }]
      state := afterFiring v.inj v.now (k + 1) }
    pipe := v.marked
    listFull := v.listFull.occurIf (decide (8 ≤ v.inj.pending.length)) }

/-- The crossing arrival at the injector (R167, R168). -/
def fireDue (v : PulseView) : PulseView :=
  match v.inj.state with
  | .disarmed => v
  | .armed => v
  | .delaying next => if next = v.now then v.fire 0 else v
  | .firing next k => if next = v.now then v.fire k else v

/-- A train started (R167). -/
def start (v : PulseView) : PulseView :=
  { v with inj := { v.inj with train := v.inj.train + 1, state := .delaying (v.now + BitVec.ofNat 32 v.inj.delay) } }

/-- A PULSEREQ (R166). -/
def request (before : InjState) (v : PulseView) : PulseView :=
  match before with
  | .disarmed => v
  | .armed => if v.inj.delay = 0 then v.start.fire 0 else v.start
  | .delaying _ => { v with overlap := v.overlap.occur none }
  | .firing _ _ => { v with overlap := v.overlap.occur none }

/-- One of the things a frame without an accept brings about. -/
def act (x : FrameContext) (v : PulseView) : FrameAct → PulseView
  | .expire => v.expire
  | .fire => v.fireDue
  | .request => if x.fc.pulsereq then v.request x.before else v
  | .lock | .gate | .accept | .stall => v

end PulseView

theorem pulseView_only {s t : State} (h : OnlyConditions s t) :
    pulseView t = { pulseView s with
      counters := t.cond.counters, missed := t.cond.recs[Cond.calMissed.num], overlap := t.cond.recs[Cond.calOverlap.num],
      listFull := t.cond.recs[Cond.calListFull.num] } := by
  obtain ⟨_, _, _, _, rfl⟩ := h
  rfl

theorem pulseView_conds {l : List Cond} {s t : State} (only : OnlyConditions s t) (conds : CondsOnly l s t)
    (counters : t.cond.counters = s.cond.counters)
    (away : ∀ c ∈ [Cond.calMissed, .calOverlap, .calListFull], c.num ∉ l.map Cond.num) : pulseView t = pulseView s := by
  rw [pulseView_only only, counters, conds _ (away .calMissed (by simp)), conds _ (away .calOverlap (by simp)),
    conds _ (away .calListFull (by simp))]
  rfl

theorem occurIf_counters (b : Bool) (c : Cond) (ev : Option EventNum) (s : State) :
    (occurIf b c ev s).cond.counters = s.cond.counters := by
  cases b
  · rfl
  · exact occur_counters c ev s

theorem pulseView_overlap (s : State) :
    pulseView (occur .calOverlap none s) =
      { pulseView s with overlap := (pulseView s).overlap.occur none } := by
  rw [pulseView_only (occur_only .calOverlap none s), occur_counters, occur_rec .calOverlap,
    occur_rec_other .calOverlap none s Cond.calMissed.num (by decide),
    occur_rec_other .calOverlap none s Cond.calListFull.num (by decide)]
  rfl

theorem pulseView_full (b : Bool) (s : State) :
    pulseView (occurIf b .calListFull none s) =
      { pulseView s with listFull := (pulseView s).listFull.occurIf b } := by
  rw [pulseView_only (occurIf_only b .calListFull none s), occurIf_counters, occurIf_rec b .calListFull,
    occurIf_rec_other (i := Cond.calMissed.num) b s (by decide), occurIf_rec_other (i := Cond.calOverlap.num) b s (by decide)]
  rfl

theorem pulseView_miss (s : State) : pulseView (missPulse s) = (pulseView s).miss := by
  have tallied : pulseView (tally (fun c => { c with missed := c.missed + 1 }) s) =
      { pulseView s with counters := { s.cond.counters with missed := s.cond.counters.missed + 1 } } := rfl
  let u := tally (fun c => { c with missed := c.missed + 1 }) s
  have occurred : pulseView (occur .calMissed none u) = { pulseView u with missed := (pulseView u).missed.occur none } := by
    rw [pulseView_only (occur_only .calMissed none u), occur_counters, occur_rec .calMissed,
      occur_rec_other .calMissed none u Cond.calOverlap.num (by decide),
      occur_rec_other .calMissed none u Cond.calListFull.num (by decide)]
    rfl
  refine occurred.trans ?_
  rw [show pulseView u = _ from tallied]
  rfl

theorem pulseView_expire (s : State) : pulseView (expirePulses s) = (pulseView s).expire := by
  have missed : ∀ (l : List Pulse) (t : State),
      pulseView (l.foldl (fun t _ => missPulse t) t) = l.foldl (fun v _ => v.miss) (pulseView t) := by
    intro l
    induction l with
    | nil => exact fun _ => rfl
    | cons p l ih => exact fun t => (ih (missPulse t)).trans (congrArg (l.foldl _) (pulseView_miss t))
  rw [expirePulses_eq]
  exact missed _ _

theorem pulseView_fire (k : Nat) (s : State) : pulseView (firePulse k s) = (pulseView s).fire k := by
  rw [firePulse_eq, pulseView_full]
  rfl

theorem pulseView_fireDue (s : State) : pulseView (fireDue s) = (pulseView s).fireDue := by
  cases state : s.inj.state with
  | disarmed => simp only [fireDue, PulseView.fireDue, pulseView, state]
  | armed => simp only [fireDue, PulseView.fireDue, pulseView, state]
  | delaying next =>
    have due : (pulseView s).fireDue = if next = s.timing.serial then (pulseView s).fire 0 else pulseView s := by
      simp only [PulseView.fireDue, pulseView, state]
      rfl
    simp only [fireDue, state, due]
    split
    · exact pulseView_fire 0 s
    · rfl
  | firing next k =>
    have due : (pulseView s).fireDue = if next = s.timing.serial then (pulseView s).fire k else pulseView s := by
      simp only [PulseView.fireDue, pulseView, state]
      rfl
    simp only [fireDue, state, due]
    split
    · exact pulseView_fire k s
    · rfl

theorem pulseView_request (before : InjState) (s : State) :
    pulseView (pulseRequest before s) = (pulseView s).request before := by
  cases before with
  | disarmed => rfl
  | armed =>
    show pulseView (if s.inj.delay = 0 then _ else _) = if s.inj.delay = 0 then _ else _
    split
    · exact pulseView_fire 0 _
    · rfl
  | delaying next => exact pulseView_overlap s
  | firing next k => exact pulseView_overlap s

theorem scanTick_counters (s : State) : (scanTick s).cond.counters = s.cond.counters := by
  unfold scanTick
  split
  · rfl
  · split <;> rfl
  · next c n _ =>
    split
    · rw [expireGate_stages, occurIf_counters, occurIf_counters, occurIf_counters]
      rfl
    · rfl

theorem frameAct_pulses {x : FrameContext} (none : x.fc.accept = false) (a : FrameAct) (s : State) :
    pulseView (frameAct x a s) = (pulseView s).act x a := by
  cases a with
  | lock =>
    obtain ⟨lock, n, e⟩ := lockTick_eq x.starts s
    rw [frameAct, e]
    rfl
  | gate =>
    obtain ⟨i, only⟩ := scanTick_only s
    have conds := frameAct_conds x .gate s
    exact (pulseView_conds (s := { s with integ := i }) (l := actConds .gate) only conds (scanTick_counters s) (by decide)).trans
      rfl
  | expire => exact pulseView_expire s
  | fire => exact pulseView_fireDue s
  | request =>
    rw [frameAct, PulseView.act]
    split
    · exact pulseView_request x.before s
    · rfl
  | accept => rw [frameAct, none, if_neg Bool.false_ne_true, PulseView.act]
  | stall =>
    obtain ⟨timer, mark, only⟩ := stallTick_only (x.wasWaiting || (waiting s && Config.stallAfterAccept x.index)) s
    have conds := frameAct_conds x .stall s
    exact (pulseView_conds (s := { s with tx := { s.tx with stallTimer := timer, stallMark := mark } }) (l := actConds .stall)
      only conds (occurIf_counters _ _ _ _) (by decide)).trans rfl

theorem foldActs_pulses {x : FrameContext} (none : x.fc.accept = false) (acts : List FrameAct) (s : State) :
    pulseView (acts.foldl (fun t a => frameAct x a t) s) = acts.foldl (PulseView.act x) (pulseView s) := by
  induction acts generalizing s with
  | nil => rfl
  | cons a acts ih => rw [List.foldl_cons, ih, frameAct_pulses none, List.foldl_cons]

theorem takeFrame_counters (good : Bool) (s : State) : (takeFrame good s).cond.counters = s.cond.counters := by
  have bad : ∀ u : State, (badFrame u).cond.counters = u.cond.counters := by
    intro u
    unfold badFrame
    dsimp only
    split
    · rw [occur_counters, enterSeeking, State.mapTiming_cond, occur_counters, State.mapTiming_cond]
    · rw [occur_counters, State.mapTiming_cond]
  unfold takeFrame
  dsimp only
  split
  · rfl
  · rfl
  · split
    · rfl
    · exact bad _

theorem receiverFrame_counters (f : Byte) (s : State) : (receiverFrame f s).cond.counters = s.cond.counters := by
  have appeared : (clockAppears s).cond = s.cond := by
    unfold clockAppears
    split <;> rfl
  have commanded : ∀ (fc : FastCommands) (u : State), (commandFrame fc u).cond.counters = u.cond.counters := by
    intro fc u
    unfold commandFrame
    split
    · exact occurIf_counters _ _ _ _
    · rfl
  rw [receiverFrame_stages, commanded]
  refine (takeFrame_counters (frameGood f) (clockAppears s)).trans ?_
  rw [appeared]

/-- The Timing Receiver's part of a frame moves the serial alone of what the pulses' part looks at. -/
theorem receiverFrame_pulses (f : Byte) (s : State) :
    pulseView (receiverFrame f s) = { pulseView s with now := s.timing.serial + 1 } := by
  have kept := receiverFrame_kept f s
  have conds := receiverFrame_conds f s
  have serial : (receiverFrame f s).timing.serial = s.timing.serial + 1 := by
    rw [← timingFrame_serial f s, timingFrame_timing, receiverFrame_timing]
  have sPer : (receiverFrame f s).clk.s = s.clk.s := by
    rw [receiverFrame_clk]
    unfold clockAppears
    split <;> rfl
  have acq : lookBack (receiverFrame f s).acq = lookBack s.acq := by rw [kept.acq]; rfl
  have pipe : (receiverFrame f s).pipe = s.pipe := (receiverFrame_frame f s).pipe
  rw [pulseView, receiverFrame_inj, pipe, serial, acq, sPer, receiverFrame_counters, conds _ (by decide), conds _ (by decide),
    conds _ (by decide)]
  rfl

/-- The pulses after a frame without an accept. -/
theorem timingFrame_pulses {f : Byte} {s : State} (none : (fastCommands s.timing.link f).accept = false) :
    pulseView (timingFrame f s) =
      (actOrder (fastCommands s.timing.link f) (receiverFrame f s)).foldl (PulseView.act (frameContext f s))
        { pulseView s with now := s.timing.serial + 1 } := by
  rw [← receiverFrame_pulses]
  exact foldActs_pulses (x := frameContext f s) none _ _

theorem fastCommands_noCommands {f : Byte} {s : State} (h : NoCommands f s) : fastCommands s.timing.link f = noCommands := by
  by_cases acts : s.timing.link = .locked ∧ frameGood f = true
  · rcases h with unlocked | bad | rfl
    · exact absurd acts.1 unlocked
    · rw [acts.2] at bad
      cases bad
    · rw [fastCommands_act acts.1 acts.2]
      decide
  · exact fastCommands_none acts

/-! ## Expiry and firing in either order -/

namespace PulseView

section

variable (v : PulseView)

theorem foldl_miss (l : List Pulse) :
    l.foldl (fun v _ => v.miss) v =
      { v with
        counters := { v.counters with missed := v.counters.missed + BitVec.ofNat 32 l.length }
        missed := l.foldl (fun r _ => r.occur none) v.missed } := by
  induction l generalizing v with
  | nil =>
    have none : v.counters.missed + BitVec.ofNat 32 0 = v.counters.missed := BitVec.add_zero _
    rw [List.length_nil, none]
    rfl
  | cons p l ih =>
    have more : v.counters.missed + 1 + BitVec.ofNat 32 l.length = v.counters.missed + BitVec.ofNat 32 (l.length + 1) := by
      rw [BitVec.add_assoc, BitVec.ofNat_add, BitVec.add_comm 1]
      rfl
    rw [List.foldl_cons, ih, List.length_cons, ← more]
    rfl

theorem expire_eq :
    v.expire =
      { v.keep with
        counters := { v.counters with missed := v.counters.missed + BitVec.ofNat 32 v.gone.length }
        missed := v.gone.foldl (fun r _ => r.occur none) v.missed } := foldl_miss v.keep v.gone

/-- An expiry leaves all but list, MISSED and CAL_MISSED. -/
theorem expire_kept :
    v.expire.inj = v.keep.inj ∧ v.expire.pipe = v.pipe ∧ v.expire.now = v.now ∧ v.expire.sPer = v.sPer ∧
      v.expire.overlap = v.overlap ∧ v.expire.listFull = v.listFull := by
  rw [expire_eq]
  exact ⟨rfl, rfl, rfl, rfl, rfl, rfl⟩

/-- Every record is kept or missed. -/
theorem gone_length : v.gone.length = v.inj.pending.length - v.keep.inj.pending.length := by
  have both := List.length_eq_length_filter_add (l := v.inj.pending) (expired v.back v.now)
  have kept : v.keep.inj.pending.length = (v.inj.pending.filter fun p => !expired v.back v.now p).length := rfl
  have missed : v.gone.length = (v.inj.pending.filter (expired v.back v.now)).length := rfl
  omega

theorem keep_length : v.keep.inj.pending.length ≤ v.inj.pending.length := List.length_filter_le _ _

/-- Of an expiry that finds an expired record, CAL_MISSED is latched. -/
theorem expire_latch (h : ∃ p ∈ v.inj.pending, expired v.back v.now p = true) : v.expire.missed.latch = true := by
  have stays : ∀ (l : List Pulse) (r : CondRec), r.latch = true → (l.foldl (fun r _ => r.occur none) r).latch = true := by
    intro l
    induction l with
    | nil => exact fun _ latched => latched
    | cons p l ih => exact fun r _ => ih (r.occur none) rfl
  obtain ⟨p, pending, gone⟩ := h
  have found : p ∈ v.gone := List.mem_filter.2 ⟨pending, gone⟩
  rw [expire_eq]
  cases some : v.gone with
  | nil =>
    rw [some] at found
    exact absurd found List.not_mem_nil
  | cons q l => exact stays l (v.missed.occur none) rfl

theorem fireDue_idle (h : v.inj.state = .disarmed ∨ v.inj.state = .armed) : v.fireDue = v := by
  rcases h with state | state <;> simp only [fireDue, state]

theorem fireDue_due {k : Nat} (h : (v.inj.state = .delaying v.now ∧ k = 0) ∨ v.inj.state = .firing v.now k) :
    v.fireDue = v.fire k := by
  rcases h with ⟨state, rfl⟩ | state <;> simp only [fireDue, state, if_true]

/-- Without a request, a frame is an expiry and a crossing arrival at the injector, in one order or the other. -/
theorem foldl_act {x : FrameContext} (none : x.fc.pulsereq = false) {acts : List FrameAct} (perm : acts.Perm frameActs) :
    acts.foldl (act x) v = v.expire.fireDue ∨ acts.foldl (act x) v = v.fireDue.expire := by
  let moves : FrameAct → Bool := fun a => decide (a = .expire ∨ a = .fire)
  have only : act x = fun v a => if moves a then act x v a else v := by
    funext v a
    cases a <;> simp [act, moves, none]
  rw [only, ← List.foldl_filter]
  rcases List.perm_pair.1 (perm.filter moves) with order | order <;> rw [order]
  · exact .inl rfl
  · exact .inr rfl

/-- What a crossing arrival leaves that fires a pulse: it joins the list or CAL_LIST_FULL latches. -/
structure Fires (joins : Bool) (k : Nat) (v u : PulseView) : Prop where
  inj : u.inj = { v.inj with
    pending := v.keep.inj.pending ++ (if joins then [{ serial := v.now, train := v.inj.train, index := k }] else [])
    driven := v.inj.driven ++ [{ serial := v.now, mask := v.inj.mask, amplitude := v.inj.amplitude }]
    state := afterFiring v.inj v.now (k + 1) }
  pipe : u.pipe = v.marked
  listFull : u.listFull = v.listFull.occurIf (!joins)

theorem fires_after_expiry (k : Nat) : Fires (decide (v.keep.inj.pending.length < 8)) k v (v.expire.fire k) := by
  rw [expire_eq]
  by_cases room : v.keep.inj.pending.length < 8
  · have some : decide (8 ≤ v.keep.inj.pending.length) = false := decide_eq_false (Nat.not_le.2 room)
    rw [decide_eq_true room]
    refine ⟨?_, rfl, congrArg v.listFull.occurIf some⟩
    simp only [fire, some]
    rfl
  · have full : decide (8 ≤ v.keep.inj.pending.length) = true := decide_eq_true (Nat.not_lt.1 room)
    rw [decide_eq_false room]
    refine ⟨?_, rfl, congrArg v.listFull.occurIf full⟩
    simp only [fire, full, if_true, if_neg Bool.false_ne_true, List.append_nil]
    rfl

theorem fires_before_expiry (k : Nat) (full : 8 ≤ v.inj.pending.length) : Fires false k v (v.fire k).expire := by
  rw [expire_eq]
  have fired : (v.fire k).inj.pending = v.inj.pending := if_pos (decide_eq_true full)
  refine ⟨?_, rfl, congrArg v.listFull.occurIf (decide_eq_true full)⟩
  simp only [keep, fired, if_neg Bool.false_ne_true, List.append_nil]
  rfl

theorem marked_chans (c : Chan) :
    v.marked.chans[c] =
      if v.inj.mask.getLsbD c.val then { v.pipe.chans[c] with injCount := 4 * v.sPer } else v.pipe.chans[c] :=
  getElem_tab _ c

end

end PulseView

theorem afterFiring_eq (i : Injector) (now : Serial) (k : Nat) :
    afterFiring i now k =
      if k < i.count then .firing (now + BitVec.ofNat 32 i.spacing) k
      else if i.mode = .repeating then .armed else .disarmed := by
  unfold afterFiring
  cases i.mode <;> rfl

/-- The crossing arrival of a frame that fires a pulse, whatever the order: with room the pulse joins the list, and with 8
records of which none expires it does not. -/
theorem timingFrame_fires {f : Byte} {s : State} {k : Nat} (quiet : NoCommands f s)
    (due : (s.inj.state = .delaying (s.timing.serial + 1) ∧ k = 0) ∨ s.inj.state = .firing (s.timing.serial + 1) k) :
    ∃ joins : Bool, PulseView.Fires joins k { pulseView s with now := s.timing.serial + 1 } (pulseView (timingFrame f s)) ∧
      (s.inj.pending.length < 8 → joins = true) ∧
      (8 ≤ s.inj.pending.length →
        (∀ p ∈ s.inj.pending, expired (lookBack s.acq) (s.timing.serial + 1) p = false) → joins = false) := by
  let v : PulseView := { pulseView s with now := s.timing.serial + 1 }
  have noFlags := fastCommands_noCommands quiet
  have pulses := timingFrame_pulses (f := f) (s := s) (by rw [noFlags]; rfl)
  have noRequest : (frameContext f s).fc.pulsereq = false := by rw [frameContext, noFlags]; rfl
  have fires : v.fireDue = v.fire k := v.fireDue_due due
  have later : v.expire.fireDue = v.expire.fire k := by
    obtain ⟨inj, -, now, -⟩ := v.expire_kept
    refine v.expire.fireDue_due ?_
    rw [inj, now]
    exact due
  have after : PulseView.Fires (decide (v.keep.inj.pending.length < 8)) k v v.expire.fireDue :=
    later ▸ v.fires_after_expiry k
  have whole : (∀ p ∈ s.inj.pending, expired (lookBack s.acq) (s.timing.serial + 1) p = false) →
      v.keep.inj.pending = s.inj.pending := by
    intro none
    refine List.filter_eq_self.2 fun p pending => ?_
    rw [Bool.not_eq_true']
    exact none p pending
  by_cases room : s.inj.pending.length < 8
  · have plain := actOrder_plain (fastCommands s.timing.link f) (receiverFrame f s) (by rw [noFlags]; rfl)
      (by rw [receiverFrame_inj]; exact room)
    have order : frameActs.foldl (PulseView.act (frameContext f s)) v = v.expire.fireDue := by
      show (if (frameContext f s).fc.pulsereq then _ else _) = _
      rw [noRequest, if_neg Bool.false_ne_true]
      rfl
    rw [pulses, plain]
    exact ⟨_, order ▸ after, fun _ => decide_eq_true (Nat.lt_of_le_of_lt v.keep_length room),
      fun full => absurd room (Nat.not_lt.2 full)⟩
  · rw [pulses]
    rcases v.foldl_act noRequest (actOrder_perm (fastCommands s.timing.link f) (receiverFrame f s)) with order | order
    · refine ⟨_, order ▸ after, fun room' => absurd room' room, fun full none => ?_⟩
      rw [whole none]
      exact decide_eq_false room
    · refine ⟨false, ?_, fun room' => absurd room' room, fun _ _ => rfl⟩
      rw [order, fires]
      exact v.fires_before_expiry k (Nat.not_lt.1 room)

/-- Settles O21: expiry and firing in either order leave the same list but for the fired record. -/
theorem pulseFires : Obligations.PulseFires := by
  intro f s0 k c s quiet due
  have firing : (s.inj.state = .delaying (s.timing.serial + 1) ∧ k = 0) ∨ s.inj.state = .firing (s.timing.serial + 1) k :=
    due.imp (fun ⟨state, first, _⟩ => ⟨state, first⟩) (fun ⟨state, _⟩ => state)
  obtain ⟨joins, fires, room, full⟩ := timingFrame_fires quiet firing
  have calm := timingFrame_calm f s (by rw [fastCommands_noCommands quiet]; rfl)
  have runs : exec c s0 = .next (timingFrame f s) := by
    rcases due with ⟨state, -, rfl⟩ | ⟨state, rfl⟩
    · have due : delayDue s = true := by simp [delayDue, state, nextSerial]
      exact congrArg _ (frameWhen_due due)
    · have due : firingDue s = true := by simp [firingDue, state, nextSerial]
      exact congrArg _ (frameWhen_due due)
  refine ⟨timingFrame f s, joins, runs, fires.inj.trans ?_, room, full, fun joined => ?_, fun missed => ?_, fun ch => ?_,
    calm.w, calm.records, calm.builder, calm.buffer⟩
  · rw [afterFiring_eq]
    rfl
  · rw [joined] at fires
    exact fires.listFull
  · rw [missed] at fires
    exact ⟨congrArg CondRec.latch fires.listFull, congrArg CondRec.count fires.listFull⟩
  · exact (congrArg (fun p : Pipeline => p.chans[ch]) fires.pipe).trans (PulseView.marked_chans _ ch)

/-! ## A PULSEREQ (R166, R167) -/

/-- A frame that brings a PULSEREQ alone, with room in the list: expiry, firing and request in the order of R26. -/
theorem timingFrame_request {s : State} (locked : s.timing.link = .locked) (room : s.inj.pending.length < 8) :
    pulseView (timingFrame 0x1E s) =
      ({ pulseView s with now := s.timing.serial + 1 } : PulseView).expire.fireDue.request s.inj.state := by
  have flags : fastCommands s.timing.link 0x1E = { noCommands with pulsereq := true } := by
    rw [locked]
    decide
  rw [timingFrame_pulses (by rw [flags]; rfl),
    actOrder_plain (fastCommands s.timing.link 0x1E) (receiverFrame 0x1E s) (by rw [flags]; rfl)
      (by rw [receiverFrame_inj]; exact room)]
  show (if (fastCommands s.timing.link 0x1E).pulsereq then _ else _) = _
  rw [flags]
  rfl

namespace PulseView

/-- A firing moves neither the train's number nor CAL_OVERLAP. -/
theorem fireDue_kept (v : PulseView) : v.fireDue.inj.train = v.inj.train ∧ v.fireDue.overlap = v.overlap := by
  unfold fireDue
  split
  · exact ⟨rfl, rfl⟩
  · exact ⟨rfl, rfl⟩
  · split <;> exact ⟨rfl, rfl⟩
  · split <;> exact ⟨rfl, rfl⟩

/-- A train that starts and fires at once, after an expiry, with room in the list (R167 with D = 0). -/
theorem fires_at_start (v : PulseView) (room : v.inj.pending.length < 8) :
    Fires true 0 v.start (v.expire.start.fire 0) := by
  have same : v.expire.start = v.start.expire := by
    rw [expire_eq, expire_eq]
    rfl
  have fires := v.start.fires_after_expiry 0
  rw [decide_eq_true (Nat.lt_of_le_of_lt v.keep_length room : v.start.keep.inj.pending.length < 8), ← same] at fires
  exact fires

end PulseView

/-- Settles O22: an expiry with no train under way, and the request by the state it finds. -/
theorem pendingPulsesAndRequests : Obligations.PendingPulsesAndRequests := by
  refine ⟨?_, ?_⟩
  · intro f s0 s quiet idle some
    let v : PulseView := { pulseView s with now := s.timing.serial + 1 }
    have noFlags := fastCommands_noCommands quiet
    have calm := timingFrame_calm f s (by rw [noFlags]; rfl)
    have due : expiryDue s = true := List.any_eq_true.2 some
    have expires : pulseView (timingFrame f s) = v.expire := by
      have noRequest : (frameContext f s).fc.pulsereq = false := by rw [frameContext, noFlags]; rfl
      have early : v.fireDue = v := v.fireDue_idle idle
      have late : v.expire.fireDue = v.expire := v.expire.fireDue_idle (by rw [v.expire_kept.1]; exact idle)
      rw [timingFrame_pulses (by rw [noFlags]; rfl)]
      rcases v.foldl_act noRequest (actOrder_perm (fastCommands s.timing.link f) (receiverFrame f s)) with order | order
      · exact order.trans late
      · exact order.trans (congrArg PulseView.expire early)
    have inj : (timingFrame f s).inj = v.keep.inj := (congrArg PulseView.inj expires).trans v.expire_kept.1
    refine ⟨timingFrame f s, congrArg _ (frameWhen_due due), inj, ?_, ?_, ?_, calm.records⟩
    · rw [inj]
      have counters := (congrArg PulseView.counters expires).trans (congrArg PulseView.counters v.expire_eq)
      refine counters.trans ?_
      rw [v.gone_length]
      rfl
    · exact (congrArg (fun v : PulseView => v.missed.latch) expires).trans (v.expire_latch some)
    · exact (congrArg PulseView.pipe expires).trans v.expire_kept.2.1
  · intro s0 s locked room
    let v : PulseView := { pulseView s with now := s.timing.serial + 1 }
    have pulses : pulseView (timingFrame 0x1E s) = v.expire.fireDue.request s.inj.state := timingFrame_request locked room
    obtain ⟨inj, pipe, now, sPer, overlap, listFull⟩ := v.expire_kept
    have idle : s.inj.state = .disarmed ∨ s.inj.state = .armed → v.expire.fireDue = v.expire := fun state =>
      v.expire.fireDue_idle (by rw [inj]; exact state)
    refine ⟨fun armed delay _ => ⟨timingFrame 0x1E s, rfl, ?_⟩, fun armed delay => ⟨timingFrame 0x1E s, rfl, ?_⟩,
      fun disarmed => ⟨timingFrame 0x1E s, rfl, ?_⟩, fun next k training => ⟨timingFrame 0x1E s, rfl, ?_⟩⟩
    · have later : ¬v.expire.inj.delay = 0 := by
        rw [inj]
        exact Nat.pos_iff_ne_zero.1 delay
      rw [idle (.inr armed), armed, PulseView.request, if_neg later] at pulses
      refine ⟨(congrArg (fun v : PulseView => v.inj.state) pulses).trans ?_,
        (congrArg (fun v : PulseView => v.inj.train) pulses).trans ?_, (congrArg PulseView.pipe pulses).trans pipe⟩
      · rw [PulseView.start, now, inj]
        rfl
      · rw [PulseView.start, inj]
        rfl
    · have atOnce : v.expire.inj.delay = 0 := by
        rw [inj]
        exact delay
      rw [idle (.inr armed), armed, PulseView.request, if_pos atOnce] at pulses
      have fires := v.fires_at_start room
      rw [← pulses] at fires
      refine ⟨fires.inj.trans ?_, fun ch => ?_, fires.listFull⟩
      · rw [afterFiring_eq]
        rfl
      · exact (congrArg (fun p : Pipeline => p.chans[ch]) fires.pipe).trans (PulseView.marked_chans _ ch)
    · rw [idle (.inl disarmed), disarmed, PulseView.request] at pulses
      refine ⟨(congrArg (fun v : PulseView => v.inj.state) pulses).trans ?_,
        (congrArg (fun v : PulseView => v.inj.train) pulses).trans ?_, (congrArg PulseView.pipe pulses).trans pipe,
        (congrArg PulseView.overlap pulses).trans overlap⟩
      · rw [inj]
        exact disarmed
      · rw [inj]
        rfl
    · obtain ⟨train, latch⟩ := v.expire.fireDue_kept
      have overlaps : v.expire.fireDue.request s.inj.state =
          { v.expire.fireDue with overlap := v.expire.fireDue.overlap.occur none } := by
        rcases training with state | state <;> rw [state] <;> rfl
      have record := (congrArg PulseView.overlap (pulses.trans overlaps)).trans
        (congrArg (CondRec.occur · none) (latch.trans overlap))
      refine ⟨(congrArg (fun v : PulseView => v.inj.train) (pulses.trans overlaps)).trans (train.trans ?_),
        congrArg CondRec.latch record, congrArg CondRec.count record⟩
      rw [inj]
      rfl

end Sys2Proof.Machine
end


section
/-!
The sample arrival at the Sample Pipeline and the Pedestal Tracker: what it writes, the end of priming, and what a completed
block does to a channel-gain.
-/

namespace Sys2Proof.Machine

/-! ## A completed block of one channel-gain (R79 to R82) -/

theorem clampTo_bounds (x : Int) : 0 ≤ clampTo 0 65520 x ∧ clampTo 0 65520 x ≤ 65520 := by
  unfold clampTo
  split
  · omega
  · split <;> omega

theorem clampTo_ne_iff (x : Int) : clampTo 0 65520 x ≠ x ↔ x < 0 ∨ 65520 < x := by
  unfold clampTo
  split
  · omega
  · split <;> omega

theorem clampTo_inside {x : Int} (low : 0 ≤ x) (high : x ≤ 65520) : clampTo 0 65520 x = x := by
  rw [clampTo, if_neg (by omega), if_neg (by omega)]

theorem clampPed_eq (x : Int) : clampPed x = ((clampTo 0 65520 x).toNat, decide (x < 0 ∨ 65520 < x)) := by
  show ((clampTo 0 65520 x).toNat, decide (clampTo 0 65520 x ≠ x)) = _
  rw [decide_eq_decide.2 (clampTo_ne_iff x)]

theorem clampPed_sub {p d : Nat} (top : p ≤ 65520) : clampPed ((p : Int) - d) = (p - d, decide (p < d)) := by
  rw [clampPed_eq, Prod.mk.injEq, decide_eq_decide]
  refine ⟨?_, by omega⟩
  unfold clampTo
  split
  · omega
  · split <;> omega

theorem clampPed_add (p d : Nat) : clampPed ((p : Int) + d) = (min 65520 (p + d), decide (65520 < p + d)) := by
  rw [clampPed_eq, Prod.mk.injEq, decide_eq_decide]
  refine ⟨?_, by omega⟩
  unfold clampTo
  split
  · omega
  · split <;> omega

theorem mem_rangeCond (b : Bool) (c : Cond) : c ∈ rangeCond b ↔ b = true ∧ c = .pedRange := by
  cases b <;> simp [rangeCond]

section

variable {target h dac : Nat} {g : GainTrack}

theorem trimCheck_lowers (above : 16 * (target + h) < g.p) (room : 0 < dac) (top : g.p ≤ 65520) :
    trimCheck target h g dac =
      { track := { g with p := g.p - g.sigma, blank := true }, dac := dac - 1, stepped := true,
        conds := rangeCond (decide (g.p < g.sigma)) } := by
  rw [trimCheck, if_pos (by omega), if_pos room, clampPed_sub top]

theorem trimCheck_atBottom (above : 16 * (target + h) < g.p) (bottom : dac = 0) :
    trimCheck target h g dac = { track := g, dac := dac, stepped := false, conds := [.trimLimit] } := by
  rw [trimCheck, if_pos (by omega), if_neg (by omega)]

theorem trimCheck_raises (below : g.p + 16 * h < 16 * target) (room : dac < 255) :
    trimCheck target h g dac =
      { track := { g with p := min 65520 (g.p + g.sigma), blank := true }, dac := dac + 1, stepped := true,
        conds := rangeCond (decide (65520 < g.p + g.sigma)) } := by
  rw [trimCheck, if_neg (by omega), if_pos (by omega), if_pos room, clampPed_add]

theorem trimCheck_atTop (below : g.p + 16 * h < 16 * target) (top : 255 ≤ dac) :
    trimCheck target h g dac = { track := g, dac := dac, stepped := false, conds := [.trimLimit] } := by
  rw [trimCheck, if_neg (by omega), if_pos (by omega), if_neg (by omega)]

theorem trimCheck_inside (low : g.p ≤ 16 * (target + h)) (high : 16 * target ≤ g.p + 16 * h) :
    trimCheck target h g dac = { track := g, dac := dac, stepped := false, conds := [] } := by
  rw [trimCheck, if_neg (by omega), if_neg (by omega)]

end

/-- Where a block of a sum moves P to before the clamp (R80). -/
def movedPed (c : ChanTrack) (sum : Nat) (g : GainTrack) : Int :=
  (g.p : Int) + roundBy c.updateExp ((meanOf c.blockExp sum : Int) - (g.p : Int))

/-- P after the update (R80). -/
def updatedPed (c : ChanTrack) (sum : Nat) (g : GainTrack) : Nat := (clampTo 0 65520 (movedPed c sum g)).toNat

/-- The update's clamp changed P. -/
def pedLeaves (c : ChanTrack) (sum : Nat) (g : GainTrack) : Bool :=
  decide (clampTo 0 65520 (movedPed c sum g) ≠ movedPed c sum g)

theorem pedLeaves_iff (c : ChanTrack) (sum : Nat) (g : GainTrack) :
    pedLeaves c sum g = true ↔ movedPed c sum g < 0 ∨ 65520 < movedPed c sum g :=
  decide_eq_true_iff.trans (clampTo_ne_iff _)

/-- The channel-gain with its accumulator emptied and P updated. -/
def updatedTrack (c : ChanTrack) (sum : Nat) (g : GainTrack) : GainTrack :=
  { g with count := 0, sum := 0, p := updatedPed c sum g }

section

variable (c : ChanTrack) (target sum dac : Nat) (g : GainTrack)

theorem updatedPed_le : updatedPed c sum g ≤ 65520 := by
  have := clampTo_bounds (movedPed c sum g)
  unfold updatedPed
  omega

variable {c g}

theorem blockComplete_blanked (blank : g.blank = true) :
    blockComplete c target sum g dac =
      { track := { g with count := 0, sum := 0, blank := false }, dac := dac, stepped := false, conds := [] } := if_pos blank

theorem blockComplete_untrimmed (blank : g.blank = false) (auto : c.autoTrim = false) :
    blockComplete c target sum g dac =
      { track := updatedTrack c sum g, dac := dac, stepped := false, conds := rangeCond (pedLeaves c sum g) } :=
  (if_neg (by simp [blank])).trans (if_neg (by simp [auto]))

theorem blockComplete_trimmed (blank : g.blank = false) (auto : c.autoTrim = true) :
    blockComplete c target sum g dac =
      { trimCheck target c.hysteresis (updatedTrack c sum g) dac with
        conds := rangeCond (pedLeaves c sum g) ++ (trimCheck target c.hysteresis (updatedTrack c sum g) dac).conds } :=
  (if_neg (by simp [blank])).trans (if_pos auto)

/-- Above the band a DAC above 0 is lowered and P with it (R81). -/
theorem blockComplete_lowers (blank : g.blank = false) (auto : c.autoTrim = true)
    (above : 16 * (target + c.hysteresis) < updatedPed c sum g) (room : 0 < dac) :
    blockComplete c target sum g dac =
      { track := { updatedTrack c sum g with p := updatedPed c sum g - g.sigma, blank := true }, dac := dac - 1,
        stepped := true, conds := rangeCond (pedLeaves c sum g) ++ rangeCond (decide (updatedPed c sum g < g.sigma)) } := by
  rw [blockComplete_trimmed target sum dac blank auto, trimCheck_lowers above room (updatedPed_le c sum g)]
  rfl

/-- Below the band a DAC below 255 is raised and P with it (R81). -/
theorem blockComplete_raises (blank : g.blank = false) (auto : c.autoTrim = true)
    (below : updatedPed c sum g + 16 * c.hysteresis < 16 * target) (room : dac < 255) :
    blockComplete c target sum g dac =
      { track := { updatedTrack c sum g with p := min 65520 (updatedPed c sum g + g.sigma), blank := true }, dac := dac + 1,
        stepped := true,
        conds := rangeCond (pedLeaves c sum g) ++ rangeCond (decide (65520 < updatedPed c sum g + g.sigma)) } := by
  rw [blockComplete_trimmed target sum dac blank auto, trimCheck_raises below room]
  rfl

/-- Outside the band a DAC at its limit stays, and TRIM_LIMIT occurs (R82). -/
theorem blockComplete_limited (blank : g.blank = false) (auto : c.autoTrim = true)
    (limit : (16 * (target + c.hysteresis) < updatedPed c sum g ∧ dac = 0) ∨
      (updatedPed c sum g + 16 * c.hysteresis < 16 * target ∧ 255 ≤ dac)) :
    blockComplete c target sum g dac =
      { track := updatedTrack c sum g, dac := dac, stepped := false,
        conds := rangeCond (pedLeaves c sum g) ++ [.trimLimit] } := by
  rw [blockComplete_trimmed target sum dac blank auto]
  rcases limit with ⟨above, bottom⟩ | ⟨below, top⟩
  · rw [trimCheck_atBottom above bottom]
  · rw [trimCheck_atTop below top]

/-- Inside the band nothing but the update is made (R82). -/
theorem blockComplete_inside (blank : g.blank = false) (auto : c.autoTrim = true)
    (low : updatedPed c sum g ≤ 16 * (target + c.hysteresis)) (high : 16 * target ≤ updatedPed c sum g + 16 * c.hysteresis) :
    blockComplete c target sum g dac =
      { track := updatedTrack c sum g, dac := dac, stepped := false, conds := rangeCond (pedLeaves c sum g) } := by
  rw [blockComplete_trimmed target sum dac blank auto, trimCheck_inside low high, List.append_nil]

end

/-- With k = 0 the update sets P to the block mean (R80). -/
theorem updatedPed_zero {c : ChanTrack} {sum : Nat} {g : GainTrack} (k : c.updateExp = 0)
    (fits : sum * 16 + 2 ^ c.blockExp ≤ 65520 * 2 ^ c.blockExp) : updatedPed c sum g = meanOf c.blockExp sum := by
  have moved : movedPed c sum g = meanOf c.blockExp sum := by
    rw [movedPed, k, roundBy_zero]
    omega
  have top : meanOf c.blockExp sum ≤ 65520 := by
    rcases Nat.eq_zero_or_pos c.blockExp with zero | positive
    · rw [meanOf, zero, roundBy_zero]
      rw [zero] at fits
      omega
    · obtain ⟨low, -⟩ := roundBy_encloses positive (16 * (sum : Int))
      have fitsInt : (sum : Int) * 16 + 2 ^ c.blockExp ≤ 65520 * 2 ^ c.blockExp := by exact_mod_cast fits
      have half : (2 : Int) ^ (c.blockExp - 1) ≤ 2 ^ c.blockExp := by
        exact_mod_cast Nat.pow_le_pow_right (by omega) (Nat.sub_le _ _)
      have scaled : (2 : Int) ^ c.blockExp * roundBy c.blockExp (16 * (sum : Int)) ≤ 2 ^ c.blockExp * 65520 := by linarith
      have bounded := le_of_mul_le_mul_left scaled (by positivity)
      rw [meanOf]
      omega
  rw [updatedPed, moved, clampTo_inside (by omega) (by omega)]
  omega

/-- A completed block with k = 0 (R80 to R82). -/
theorem blockComplete_alone (c : ChanTrack) (target sum dac : Nat) (g : GainTrack) (auto : c.autoTrim = true)
    (k : c.updateExp = 0) (blank : g.blank = false) (fits : sum * 16 + 2 ^ c.blockExp ≤ 65520 * 2 ^ c.blockExp) :
    let m := meanOf c.blockExp sum
    let r := blockComplete c target sum g dac
    (16 * (target + c.hysteresis) < m → 0 < dac →
      r.dac = dac - 1 ∧ r.track.p = m - g.sigma ∧ r.track.blank = true ∧ r.stepped = true) ∧
    (16 * (target + c.hysteresis) < m → dac = 0 →
      r.dac = 0 ∧ r.track.p = m ∧ r.track.blank = false ∧ r.stepped = false ∧ Cond.trimLimit ∈ r.conds) ∧
    (m + 16 * c.hysteresis < 16 * target → dac < 255 →
      r.dac = dac + 1 ∧ r.track.p = min 65520 (m + g.sigma) ∧ r.track.blank = true ∧ r.stepped = true) ∧
    (m + 16 * c.hysteresis < 16 * target → dac = 255 →
      r.dac = 255 ∧ r.track.p = m ∧ r.track.blank = false ∧ r.stepped = false ∧ Cond.trimLimit ∈ r.conds) ∧
    (m ≤ 16 * (target + c.hysteresis) → 16 * target ≤ m + 16 * c.hysteresis →
      r.dac = dac ∧ r.track.p = m ∧ r.track.blank = false ∧ r.stepped = false) := by
  intro m r
  have updated : updatedPed c sum g = m := updatedPed_zero k fits
  rw [← updated]
  refine ⟨fun above room => ?_, fun above bottom => ?_, fun below room => ?_, fun below top => ?_, fun low high => ?_⟩
  · rw [show r = _ from blockComplete_lowers target sum dac blank auto above room]
    exact ⟨rfl, rfl, rfl, rfl⟩
  · rw [show r = _ from blockComplete_limited target sum dac blank auto (.inl ⟨above, bottom⟩)]
    exact ⟨bottom, rfl, blank, rfl, by simp⟩
  · rw [show r = _ from blockComplete_raises target sum dac blank auto below room]
    exact ⟨rfl, rfl, rfl, rfl⟩
  · rw [show r = _ from blockComplete_limited target sum dac blank auto (.inr ⟨below, top.ge⟩)]
    exact ⟨top, rfl, blank, rfl, by simp⟩
  · rw [show r = _ from blockComplete_inside target sum dac blank auto low high]
    exact ⟨rfl, rfl, blank, rfl⟩

/-- A completed block empties the accumulator and keeps σ. -/
theorem blockComplete_emptied (c : ChanTrack) (target sum dac : Nat) (g : GainTrack) :
    (blockComplete c target sum g dac).track.count = 0 ∧ (blockComplete c target sum g dac).track.sum = 0 ∧
      (blockComplete c target sum g dac).track.sigma = g.sigma := by
  have checked : ∀ (h : Nat) (u : GainTrack), (trimCheck target h u dac).track.count = u.count ∧
      (trimCheck target h u dac).track.sum = u.sum ∧ (trimCheck target h u dac).track.sigma = u.sigma := by
    intro h u
    unfold trimCheck
    split
    · split <;> exact ⟨rfl, rfl, rfl⟩
    · split
      · split <;> exact ⟨rfl, rfl, rfl⟩
      · exact ⟨rfl, rfl, rfl⟩
  cases blank : g.blank with
  | true =>
    rw [blockComplete_blanked target sum dac blank]
    exact ⟨rfl, rfl, rfl⟩
  | false =>
    cases auto : c.autoTrim with
    | false =>
      rw [blockComplete_untrimmed target sum dac blank auto]
      exact ⟨rfl, rfl, rfl⟩
    | true =>
      rw [blockComplete_trimmed target sum dac blank auto]
      exact checked c.hysteresis (updatedTrack c sum g)

/-- When a completed block has PED_RANGE and TRIM_LIMIT occur (R80 to R82). -/
theorem blockComplete_conds (c : ChanTrack) (target sum dac : Nat) (g : GainTrack) :
    let p := updatedPed c sum g
    let above := c.autoTrim = true ∧ 16 * (target + c.hysteresis) < p
    let below := c.autoTrim = true ∧ p + 16 * c.hysteresis < 16 * target
    let r := blockComplete c target sum g dac
    (Cond.pedRange ∈ r.conds ↔ g.blank = false ∧
      (movedPed c sum g < 0 ∨ 65520 < movedPed c sum g ∨ (above ∧ 0 < dac ∧ p < g.sigma) ∨
        (below ∧ dac < 255 ∧ 65520 < p + g.sigma))) ∧
    (Cond.trimLimit ∈ r.conds ↔ g.blank = false ∧ ((above ∧ dac = 0) ∨ (below ∧ 255 ≤ dac))) := by
  intro p above below r
  cases blank : g.blank with
  | true =>
    rw [show r = _ from blockComplete_blanked target sum dac blank]
    simp
  | false =>
    cases auto : c.autoTrim with
    | false =>
      rw [show r = _ from blockComplete_untrimmed target sum dac blank auto]
      simp [mem_rangeCond, pedLeaves_iff, above, below, auto]
    | true =>
      rcases Nat.lt_or_ge (16 * (target + c.hysteresis)) p with high | low
      · have notBelow : ¬p + 16 * c.hysteresis < 16 * target := by omega
        rcases Nat.eq_zero_or_pos dac with bottom | room
        · rw [show r = _ from blockComplete_limited target sum dac blank auto (.inl ⟨high, bottom⟩)]
          simp [mem_rangeCond, pedLeaves_iff, above, below, auto, high, notBelow, bottom]
        · rw [show r = _ from blockComplete_lowers target sum dac blank auto high room]
          simp [mem_rangeCond, pedLeaves_iff, above, below, auto, high, notBelow, room, room.ne', or_assoc, p]
      · have notAbove : ¬16 * (target + c.hysteresis) < p := Nat.not_lt.2 low
        rcases Nat.lt_or_ge (p + 16 * c.hysteresis) (16 * target) with lower | upper
        · rcases Nat.lt_or_ge dac 255 with room | top
          · rw [show r = _ from blockComplete_raises target sum dac blank auto lower room]
            simp [mem_rangeCond, pedLeaves_iff, above, below, auto, lower, notAbove, room, Nat.not_le.2 room, or_assoc, p]
          · rw [show r = _ from blockComplete_limited target sum dac blank auto (.inr ⟨lower, top⟩)]
            simp [mem_rangeCond, pedLeaves_iff, above, below, auto, lower, notAbove, top, Nat.not_lt.2 top]
        · rw [show r = _ from blockComplete_inside target sum dac blank auto low upper]
          simp [mem_rangeCond, pedLeaves_iff, above, below, auto, notAbove, Nat.not_lt.2 upper]

end Sys2Proof.Machine
end


section
/-!
A sample arrival: the rings written, priming completed, and the blocks of the channel-gains completed.
-/

namespace Sys2Proof.Machine

/-! ## Occurrences one after the other -/

theorem occur_keeps_latch {s : State} (c : Cond) (i : Fin 25) (h : s.cond.recs[i].latch = true) :
    (occur c none s).cond.recs[i].latch = true := by
  by_cases same : i = c.num
  · subst same
    exact congrArg CondRec.latch (occur_rec c none s)
  · exact (congrArg CondRec.latch (occur_rec_other c none s i same)).trans h

theorem occurAll_keeps_latch (cs : List Cond) {s : State} {i : Fin 25} (h : s.cond.recs[i].latch = true) :
    (occurAll cs s).cond.recs[i].latch = true := by
  induction cs generalizing s with
  | nil => exact h
  | cons c cs ih => exact ih (occur_keeps_latch c i h)

theorem occurAll_latch {cs : List Cond} {c : Cond} (h : c ∈ cs) (s : State) :
    (occurAll cs s).cond.recs[c.num].latch = true := by
  induction cs generalizing s with
  | nil => exact absurd h List.not_mem_nil
  | cons d cs ih =>
    rcases List.mem_cons.1 h with rfl | later
    · exact occurAll_keeps_latch cs (congrArg CondRec.latch (occur_rec c none s))
    · exact ih later (occur d none s)

theorem occur_runs {s : State} (c : Cond) (runs : s.acq.state = .running ∨ s.acq.state = .suspended) :
    (occur c none s).acq.state = .running ∨ (occur c none s).acq.state = .suspended := by
  by_cases same : class3 (occur c none s) = class3 s
  · rw [occur_acq same]
    exact runs
  · have clear : class3 s = false := by
      cases before : class3 s with
      | false => rfl
      | true => exact absurd ((class3_occur c none before).trans before.symm) same
    have raised : class3 (occur c none s) = true := by
      cases after : class3 (occur c none s) with
      | true => rfl
      | false => exact absurd (after.trans clear.symm) same
    have hands : occur c none s = onClass3Raised (s.mapCond (CondTable.occur c none)) := by
      refine changeConds_raises _ s clear ?_
      rw [class3, occur_cond] at raised
      exact raised
    rw [hands]
    refine .inr ?_
    rcases runs with state | state <;> simp [onClass3Raised, state]

/-- After occurrences in a run, acquisition is in RUNNING, or in SUSPENDED with class 3 raised (R46). -/
theorem occurAll_running (cs : List Cond) {s : State} (rule : SuspendRule s)
    (runs : s.acq.state = .running ∨ s.acq.state = .suspended) :
    (occurAll cs s).acq.state = if class3 (occurAll cs s) then .suspended else .running := by
  induction cs generalizing s with
  | nil =>
    show s.acq.state = if class3 s then .suspended else .running
    unfold SuspendRule at rule
    rcases runs with state | state <;> cases raised : class3 s <;> simp [state, raised] at rule ⊢
  | cons c cs ih => exact ih (s := occur c none s) (occur_suspendRule c none s rule) (occur_runs c runs)

/-! ## The stages of a sample arrival -/

theorem primingTest_only (s : State) : ∃ st, primingTest s = { s with acq := { s.acq with state := st } } := by
  rcases primingTest_cases s with e | ⟨-, -, e⟩
  · exact ⟨s.acq.state, e⟩
  · exact ⟨.running, e⟩

/-- A sample arrival that the Trim Engine takes no part in. -/
theorem sampleArrival_untrimmed {x : Samples} {s : State} (locked : s.clk.state = .locked) (idle : s.trim.engine = .idle) :
    sampleArrival x s = occurAll (trackConds x s) (primingTest (writeSample x s)) := by
  have engine : (occurAll (trackConds x s) (primingTest (writeSample x s))).trim.engine = .idle := by
    rw [(occurAll_only _ _).trim]
    obtain ⟨st, e⟩ := primingTest_only (writeSample x s)
    rw [e]
    exact idle
  rw [sampleArrival, if_pos locked, trimSample, engine]

theorem pipelineWritten_iff (s : State) :
    pipelineWritten s = true ↔ s.acq.state = .priming ∨ s.acq.state = .running ∨ s.acq.state = .suspended := by
  unfold pipelineWritten
  cases s.acq.state <;> simp

/-- What a sample arrival leaves, the Trim Engine IDLE: what was written, and what a priming test and occurrences can move. -/
structure Arrived (x : Samples) (s t : State) : Prop where
  pipe : t.pipe = (writeSample x s).pipe
  ped : t.ped = (writeSample x s).ped
  front : t.front = (writeSample x s).front
  timing : t.timing = s.timing
  clk : t.clk = s.clk
  records : t.aq.records = s.aq.records
  snaps : t.aq.snaps = s.aq.snaps
  filt : t.filt = s.filt
  list : t.list = s.list
  builder : t.builder = s.builder
  buffer : t.tx.buffer = s.tx.buffer
  inj : t.inj = s.inj
  integ : t.integ = s.integ
  ctl : t.ctl = s.ctl

theorem Arrived.acq {x : Samples} {s u : State} (h : Arrived x s u) (acq : Acquisition) : Arrived x s { u with acq := acq } :=
  ⟨h.pipe, h.ped, h.front, h.timing, h.clk, h.records, h.snaps, h.filt, h.list, h.builder, h.buffer, h.inj, h.integ, h.ctl⟩

theorem Arrived.only {x : Samples} {s u t : State} (h : Arrived x s u) (only : OnlyConditions u t) : Arrived x s t := by
  obtain ⟨_, _, _, _, rfl⟩ := only
  exact ⟨h.pipe, h.ped, h.front, h.timing, h.clk, h.records, h.snaps, h.filt, h.list, h.builder, h.buffer, h.inj, h.integ,
    h.ctl⟩

theorem writeSample_eq (x : Samples) (s : State) :
    writeSample x s =
      { s with pipe := (writeSample x s).pipe, ped := (writeSample x s).ped, front := (writeSample x s).front } := rfl

theorem arrived_writeSample (x : Samples) (s : State) : Arrived x s (writeSample x s) := by
  have written : ∀ u : State, u =
      { s with pipe := (writeSample x s).pipe, ped := (writeSample x s).ped, front := (writeSample x s).front } →
      Arrived x s u := by
    rintro u rfl
    exact ⟨rfl, rfl, rfl, rfl, rfl, rfl, rfl, rfl, rfl, rfl, rfl, rfl, rfl, rfl⟩
  exact written _ (writeSample_eq x s)

theorem arrived_occurAll (x : Samples) (s : State) (cs : List Cond) :
    Arrived x s (occurAll cs (primingTest (writeSample x s))) := by
  obtain ⟨st, e⟩ := primingTest_only (writeSample x s)
  rw [e]
  exact ((arrived_writeSample x s).acq _).only (occurAll_only _ _)

theorem writeSample_settings (x : Samples) (s : State) :
    (writeSample x s).pipe.latency = s.pipe.latency ∧ (writeSample x s).pipe.window = s.pipe.window ∧
      (writeSample x s).front.recs = s.front.recs := ⟨rfl, rfl, rfl⟩

theorem writeSample_numbers {x : Samples} {s : State} (written : pipelineWritten s = true) :
    (writeSample x s).pipe.w = s.pipe.w + 1 ∧ (writeSample x s).pipe.fill = bump 512 s.pipe.fill :=
  ⟨if_pos written, if_pos written⟩

section

variable (x : Samples) (s : State)

theorem writeSample_chans (c : Chan) :
    (writeSample x s).pipe.chans[c] =
      stepMark (trackAt s x c).stepped (writeChan s.pipe.w (writtenSlot s x c) s.pipe.chans[c]) := by
  show (tab fun c => stepMark (tab fun c => trackAt s x c)[c].stepped _)[c] = _
  rw [getElem_tab, getElem_tab]

theorem writeSample_track (c : Chan) : (writeSample x s).ped.chans[c] = (trackAt s x c).track := by
  show (tab fun c => (tab fun c => trackAt s x c)[c].track)[c] = _
  rw [getElem_tab, getElem_tab]

theorem writeSample_dacs (c : Chan) : (writeSample x s).front.dacs[c] = (trackAt s x c).dac := by
  show (tab fun c => (tab fun c => trackAt s x c)[c].dac)[c] = _
  rw [getElem_tab, getElem_tab]

/-- The channel-gain g of channel c at a counted sample. -/
def gainAt (c : Chan) (g : Gain) : GainResult :=
  countSample s.ped.chans[c] (s.ped.chans[c].target.get g) (x[c].get g) (s.ped.chans[c].gains.get g) (s.front.dacs[c].get g)

end

theorem tab_getElem {n : Nat} {α : Type} (v : Vector α n) : (tab fun i => v[i]) = v := by
  ext i h
  simp [tab]

/-- A channel of which no sample counts (R78). -/
def stillAt (s : State) (c : Chan) : ChanResult :=
  { track := s.ped.chans[c], dac := s.front.dacs[c], stepped := false, conds := [] }

/-- Where no sample of any channel counts, the tracker stays. -/
theorem writeSample_still {x : Samples} {s : State} (still : ∀ c, trackAt s x c = stillAt s c) :
    (writeSample x s).ped = s.ped ∧ (writeSample x s).front = s.front ∧ trackConds x s = [] := by
  have track : (tab fun c => (tab fun c => trackAt s x c)[c].track) = s.ped.chans := by
    simp only [getElem_tab, still]
    exact tab_getElem _
  have dac : (tab fun c => (tab fun c => trackAt s x c)[c].dac) = s.front.dacs := by
    simp only [getElem_tab, still]
    exact tab_getElem _
  refine ⟨congrArg (fun v => { s.ped with chans := v }) track, congrArg (fun v => { s.front with dacs := v }) dac, ?_⟩
  simp only [trackConds, still, stillAt, List.flatMap_eq_nil_iff, implies_true]

theorem trackAt_unwritten {x : Samples} {s : State} {c : Chan} (h : writtenSlot s x c = none) : trackAt s x c = stillAt s c := by
  rw [trackAt, h]
  rfl

theorem stepMark_kept (b : Bool) (p : ChanPipe) :
    stepMark b p = { p with trimStepCount := if b then 16 else p.trimStepCount } := by
  cases b <;> rfl

/-- The INJ counts run down (R9). -/
def runInj (s : State) : State :=
  { s with pipe := { s.pipe with
      chans := Vector.ofFn fun c => { s.pipe.chans[c] with injCount := s.pipe.chans[c].injCount - 1 } } }

/-- In STANDBY and DRAINING a sample arrival reaches the INJ counts and the Trim Engine alone (R7, R78). -/
theorem sampleArrival_unwritten {x : Samples} {s : State} (locked : s.clk.state = .locked)
    (away : s.acq.state = .standby ∨ s.acq.state = .draining) : sampleArrival x s = trimSample x (runInj s) := by
  have unwritten : pipelineWritten s = false := by
    unfold pipelineWritten
    rcases away with state | state <;> rw [state]
  have noSlot : ∀ c, writtenSlot s x c = none := by
    intro c
    rw [writtenSlot, unwritten]
    rfl
  obtain ⟨ped, front, none⟩ := writeSample_still fun c => trackAt_unwritten (noSlot c)
  have pipe : (writeSample x s).pipe = (runInj s).pipe := by
    have chans : (tab fun c => stepMark (tab fun c => trackAt s x c)[c].stepped
        (writeChan s.pipe.w (writtenSlot s x c) s.pipe.chans[c])) = (runInj s).pipe.chans := by
      simp only [getElem_tab, trackAt_unwritten (noSlot _), noSlot]
      rfl
    show ({ s.pipe with
      w := if pipelineWritten s then s.pipe.w + 1 else s.pipe.w
      fill := if pipelineWritten s then bump 512 s.pipe.fill else s.pipe.fill
      chans := _ } : Pipeline) = _
    rw [unwritten, chans]
    rfl
  have unprimed : ∀ u : State, u.acq = s.acq → primingTest u = u := by
    intro u acq
    rw [primingTest, acq]
    rcases away with state | state <;> rw [state]
  have runs : writeSample x s = runInj s := by
    rw [writeSample_eq, ped, front, pipe]
    rfl
  rw [sampleArrival, if_pos locked, none, unprimed (writeSample x s) rfl, runs]
  rfl

end Sys2Proof.Machine

namespace Sys2Proof.Machine

/-- Settles O16: a written slot goes into each unfrozen ring, and without a counted sample the tracker's block stays. -/
theorem sampleArrivalWritesRings : Obligations.SampleArrivalWritesRings := by
  refine ⟨?_, ?_⟩
  · intro x s0 s canonical locked idle run
    have written : pipelineWritten s = true := (pipelineWritten_iff s).2 run
    have arrived := arrived_occurAll x s (trackConds x s)
    rw [← sampleArrival_untrimmed locked idle] at arrived
    have slots : ∀ c : Chan, s.pipe.chans[c].frozen = false →
        writtenSlot s x c = some (composeSlot s.front.recs[c].enable s.pipe.chans[c] x[c]) := by
      intro c unfrozen
      rw [writtenSlot, written, unfrozen]
      rfl
    have noSlot : ∀ c : Chan, s.pipe.chans[c].frozen = true → writtenSlot s x c = none := by
      intro c frozen
      rw [writtenSlot, written, frozen]
      rfl
    have chans : ∀ c : Chan, (sampleArrival x s).pipe.chans[c] =
        stepMark (trackAt s x c).stepped (writeChan s.pipe.w (writtenSlot s x c) s.pipe.chans[c]) := by
      intro c
      rw [arrived.pipe]
      exact writeSample_chans x s c
    obtain ⟨latency, window, recs⟩ := writeSample_settings x s
    obtain ⟨w, fill⟩ := writeSample_numbers (x := x) written
    rw [← arrived.pipe] at latency window w fill
    rw [← arrived.front] at recs
    refine ⟨sampleArrival x s, rfl, w, fill, fun c unfrozen => ?_, fun c frozen => ?_, fun c => ?_, fun unaligned => ?_, latency,
      window, recs, arrived.timing, arrived.clk, arrived.records, arrived.snaps, arrived.filt, arrived.list, arrived.builder,
      arrived.buffer, arrived.inj, arrived.integ, arrived.ctl⟩
    · have chan := chans c
      rw [slots c unfrozen, stepMark_kept] at chan
      rw [chan]
      refine ⟨?_, fun p other => ringRead_ringWrite_other _ _ p _ (canonical c) other, rfl, rfl, rfl⟩
      exact (ringRead_ringWrite_same _ _ _ (canonical c)).trans rfl
    · have still : (trackAt s x c).stepped = false := by
        rw [trackAt, noSlot c frozen]
        rfl
      have chan := chans c
      rw [noSlot c frozen, still] at chan
      rw [chan]
      exact ⟨rfl, rfl, rfl, rfl⟩
    · have chan := chans c
      rw [stepMark_kept] at chan
      rw [chan]
      cases frozen : s.pipe.chans[c].frozen with
      | true => exact ⟨by rw [noSlot c frozen]; rfl, by rw [noSlot c frozen]; exact frozen⟩
      | false => exact ⟨by rw [slots c frozen]; rfl, by rw [slots c frozen]; exact frozen⟩
    · obtain ⟨ped, front, none⟩ := writeSample_still fun c => trackAt_unaligned unaligned x c
      refine ⟨arrived.ped.trans ped, arrived.front.trans front, ?_⟩
      rw [sampleArrival_untrimmed locked idle, none]
      obtain ⟨st, e⟩ := primingTest_only (writeSample x s)
      rw [e]
      rfl
  · intro x s0 s locked idle away
    refine congrArg Host.Outcome.next ((sampleArrival_unwritten locked away).trans ?_)
    rw [trimSample, show (runInj s).trim.engine = .idle from idle]
    rfl

/-! ## The end of priming (R44) -/

theorem primingTest_filled {s : State} (priming : s.acq.state = .priming) (filled : s.pipe.fill = s.acq.startL) :
    primingTest s = setAcq .running s := by
  rw [primingTest, priming]
  exact if_pos filled

/-- Settles O17: the fill count reaches L, PRIMING enters RUNNING, and the occurrences of the arrival may suspend. -/
theorem primingCompletes : Obligations.PrimingCompletes := by
  intro x s0 s rule standby priming locked below last
  have idle : s.trim.engine = .idle := standby (by simp [priming])
  have bumped : bump 512 s.pipe.fill = s.acq.startL := (if_pos below).trans last
  have written : pipelineWritten s = true := (pipelineWritten_iff s).2 (.inl priming)
  obtain ⟨-, fill⟩ := writeSample_numbers (x := x) written
  have runs : primingTest (writeSample x s) = setAcq .running (writeSample x s) :=
    primingTest_filled (s := writeSample x s) priming (fill.trans bumped)
  have stages : sampleArrival x s = occurAll (trackConds x s) (setAcq .running (writeSample x s)) := by
    rw [sampleArrival_untrimmed locked idle, runs]
  have due : primingDue s = true := decide_eq_true ⟨locked, priming, bumped⟩
  have started : SuspendRule (setAcq .running (writeSample x s)) := by
    have clear : class3 s = false := by
      unfold SuspendRule at rule
      simpa [priming] using rule
    have raised : class3 (setAcq .running (writeSample x s)) = false := clear
    have state : (setAcq .running (writeSample x s)).acq.state = .running := rfl
    unfold SuspendRule
    simp [raised, state]
  have arrived := arrived_occurAll x s (trackConds x s)
  rw [← sampleArrival_untrimmed locked idle] at arrived
  refine ⟨sampleArrival x s, congrArg Host.Outcome.next (if_pos due), ?_, ?_⟩
  · rw [arrived.pipe]
    exact fill.trans bumped
  · rw [stages, ← occurAll_running (trackConds x s) started (.inl rfl)]
    exact (occurAll_only (trackConds x s) (setAcq .running (writeSample x s))).acq

/-! ## A counted sample at a channel (R78, R79) -/

section

variable {x : Samples} {s : State} {c : Chan}

theorem trackAt_counts (h : SampleCounts x s c) :
    ∃ y : Slot, y.hg = x[c].hg ∧ y.lg = x[c].lg ∧ writtenSlot s x c = some y ∧
      slotCounts s.ped.chans[c] (quietSample s) y = true := by
  obtain ⟨run, -, aligned, quiet, tracking, unfrozen, enabled, hg, lg, inj, step⟩ := h
  have written : pipelineWritten s = true := (pipelineWritten_iff s).2 run
  have slot : writtenSlot s x c = some (composeSlot true s.pipe.chans[c] x[c]) := by
    rw [writtenSlot, written, unfrozen, enabled]
    rfl
  refine ⟨_, rfl, rfl, slot, ?_⟩
  have noHg : x[c].hg ≠ 4095#12 := hg
  have noLg : x[c].lg ≠ 4095#12 := lg
  simp only [slotCounts, quietSample, composeSlot, aligned, quiet, tracking, inj, step]
  simp only [if_true, decide_eq_false noHg, decide_eq_false noLg, lt_irrefl, decide_false, Bool.and_self, Bool.not_false]

/-- Both gains of a channel whose sample counts take their codes. -/
theorem trackAt_gains (h : SampleCounts x s c) :
    trackAt s x c =
      { track := { s.ped.chans[c] with gains := ⟨(gainAt x s c .hg).track, (gainAt x s c .lg).track⟩ }
        dac := ⟨(gainAt x s c .hg).dac, (gainAt x s c .lg).dac⟩
        stepped := (gainAt x s c .hg).stepped || (gainAt x s c .lg).stepped
        conds := (gainAt x s c .hg).conds ++ (gainAt x s c .lg).conds } := by
  obtain ⟨y, hg, lg, slot, counts⟩ := trackAt_counts h
  rw [trackAt, slot, trackChan, counts, if_pos rfl, trackSlot, hg, lg]
  rfl

/-- What a sample arrival leaves of a channel-gain whose sample counts. -/
structure Counted (s t : State) (c : Chan) (g : Gain) (r : GainResult) : Prop where
  track : t.ped.chans[c].gains.get g = r.track
  dac : t.front.dacs[c].get g = r.dac
  settings : t.ped.chans[c].settings = s.ped.chans[c].settings
  marked : r.stepped = true → t.pipe.chans[c].trimStepCount = 16
  latched : ∀ k ∈ r.conds, t.cond.recs[k.num].latch = true

theorem sampleArrival_counted (h : SampleCounts x s c) (idle : s.trim.engine = .idle) (g : Gain) :
    Counted s (sampleArrival x s) c g (gainAt x s c g) := by
  have locked : s.clk.state = .locked := h.2.1
  have stages := sampleArrival_untrimmed (x := x) locked idle
  have arrived := arrived_occurAll x s (trackConds x s)
  rw [← stages] at arrived
  have result := trackAt_gains h
  have track : (sampleArrival x s).ped.chans[c] = (trackAt s x c).track := by
    rw [arrived.ped]
    exact writeSample_track x s c
  have dac : (sampleArrival x s).front.dacs[c] = (trackAt s x c).dac := by
    rw [arrived.front]
    exact writeSample_dacs x s c
  have conds : ∀ k ∈ (gainAt x s c g).conds, k ∈ trackConds x s := by
    intro k found
    refine List.mem_flatMap.2 ⟨c, List.mem_finRange c, ?_⟩
    rw [result]
    cases g with
    | hg => exact List.mem_append_left _ found
    | lg => exact List.mem_append_right _ found
  refine ⟨?_, ?_, ?_, fun stepped => ?_, fun k found => ?_⟩
  · rw [track, result]
    cases g <;> rfl
  · rw [dac, result]
    cases g <;> rfl
  · rw [track, result]
    rfl
  · have marks : (trackAt s x c).stepped = true := by
      rw [result]
      cases g with
      | hg => exact (congrArg (· || _) stepped).trans (Bool.true_or _)
      | lg => exact (congrArg (_ || ·) stepped).trans (Bool.or_true _)
    rw [arrived.pipe, writeSample_chans, marks]
    rfl
  · rw [stages]
    exact occurAll_latch (conds k found) _

/-- The counted sample that completes a block of a channel-gain: the row of BLOCK_COMPLETE takes it. -/
theorem sampleArrival_blockDue (h : SampleCounts x s c) {g : Gain}
    (full : 2 ^ s.ped.chans[c].blockExp = (s.ped.chans[c].gains.get g).count + 1) : blockDue x s = true := by
  obtain ⟨y, -, -, slot, counts⟩ := trackAt_counts h
  rw [blockDue, decide_eq_true h.2.1, Bool.true_and, List.any_eq_true]
  refine ⟨c, List.mem_finRange c, ?_⟩
  rw [slot]
  show (slotCounts _ _ y && _) = true
  rw [counts, Bool.true_and, Bool.or_eq_true, decide_eq_true_iff, decide_eq_true_iff]
  cases g with
  | hg => exact .inl full.le
  | lg => exact .inr full.le

theorem gainAt_block (g : Gain) (full : 2 ^ s.ped.chans[c].blockExp = (s.ped.chans[c].gains.get g).count + 1) :
    gainAt x s c g =
      blockComplete s.ped.chans[c] (s.ped.chans[c].target.get g) ((s.ped.chans[c].gains.get g).sum + (x[c].get g).toNat)
        (s.ped.chans[c].gains.get g) (s.front.dacs[c].get g) := if_pos full.le

end

end Sys2Proof.Machine

namespace Sys2Proof.Machine

/-- Settles O18: a counted sample gives each gain the result of its block, and the block's result is a case of the band. -/
theorem blocksMovePedestals : Obligations.BlocksMovePedestals := by
  refine ⟨?_, ?_, ?_, ?_⟩
  · intro x s0 c g s counts idle manual full
    have due := sampleArrival_blockDue counts full
    have counted := sampleArrival_counted counts idle g
    rw [gainAt_block g full] at counted
    refine ⟨sampleArrival x s, congrArg Host.Outcome.next (if_pos due), ?_⟩
    cases blank : (s.ped.chans[c].gains.get g).blank with
    | true =>
      rw [blockComplete_blanked _ _ _ blank] at counted
      exact ⟨counted.track, counted.dac, counted.settings, fun fresh => by cases fresh⟩
    | false =>
      rw [blockComplete_untrimmed _ _ _ blank manual] at counted
      refine ⟨counted.track.trans ?_, counted.dac, counted.settings, fun _ leaves => ?_⟩
      · simp only [updatedTrack, blank]
        rfl
      · exact counted.latched .pedRange ((mem_rangeCond _ _).2 ⟨(pedLeaves_iff _ _ _).2 leaves, rfl⟩)
  · intro x s0 c g s old dac target h counts idle auto full m moved p
    have due := sampleArrival_blockDue counts full
    have counted := sampleArrival_counted counts idle g
    rw [gainAt_block g full] at counted
    refine ⟨sampleArrival x s, congrArg Host.Outcome.next (if_pos due), counted.settings, fun blank => ?_, fun fresh above room => ?_,
      fun fresh below room => ?_, fun fresh limit => ?_, fun fresh low high => ?_, fun fresh leaves => ?_⟩
    · rw [blockComplete_blanked _ _ _ blank] at counted
      exact ⟨counted.track, counted.dac⟩
    · rw [blockComplete_lowers _ _ _ fresh auto above room] at counted
      exact ⟨counted.track, counted.dac, counted.marked rfl⟩
    · rw [blockComplete_raises _ _ _ fresh auto below room] at counted
      exact ⟨counted.track, counted.dac, counted.marked rfl⟩
    · rw [blockComplete_limited _ _ _ fresh auto (limit.imp id fun ⟨below, top⟩ => ⟨below, top.ge⟩)] at counted
      exact ⟨counted.track, counted.dac, counted.latched .trimLimit (by simp)⟩
    · rw [blockComplete_inside _ _ _ fresh auto low high] at counted
      exact ⟨counted.track, counted.dac⟩
    · refine counted.latched .pedRange ((blockComplete_conds _ _ _ _ _).1.2 ⟨fresh, ?_⟩)
      rcases leaves with under | beyond | ⟨above, room, less⟩ | ⟨below, room, more⟩
      · exact .inl under
      · exact .inr (.inl beyond)
      · exact .inr (.inr (.inl ⟨⟨auto, above⟩, room, less⟩))
      · exact .inr (.inr (.inr ⟨⟨auto, below⟩, room, more⟩))
  · intro c target sum dac g auto k blank fits m r
    obtain ⟨lowers, bottom, raises, top, inside⟩ := blockComplete_alone c target sum dac g auto k blank fits
    exact ⟨lowers, bottom, raises, top, inside, blockComplete_emptied c target sum dac g⟩
  · exact fun c target sum dac g => blockComplete_conds c target sum dac g

end Sys2Proof.Machine
end


section
/-!
Manual trim mode and the long trim: a sample arrival in STANDBY at the Trim Engine.
-/

namespace Sys2Proof.Machine

/-! ## Manual trim mode (R94, R95) -/

section

variable {x : Samples} {s : State} {m : ManualTrim}

theorem deliveredCode_enabled {c : Chan} (enabled : s.front.recs[c].enable = true) (g : Gain) :
    deliveredCode s x c g = (x[c].get g).toNat := if_pos enabled

theorem sampleArrival_manual (locked : s.clk.state = .locked) (standby : s.acq.state = .standby)
    (manual : s.trim.engine = .manual m) : sampleArrival x s = manualSample m x (runInj s) := by
  rw [sampleArrival_unwritten locked (.inl standby), trimSample, show (runInj s).trim.engine = .manual m from manual]

theorem manualSample_settles (settling : 0 < m.settle) :
    manualSample m x s = setManual { m with settle := m.settle - 1 } s := if_pos settling

theorem manualSample_rests (settled : m.settle = 0) (none : m.measuring = none) : manualSample m x s = s := by
  rw [manualSample, if_neg (by omega), none]

theorem manualSample_sums {k sum : Nat} (settled : m.settle = 0) (sums : m.measuring = some { count := k, sum := sum })
    (more : k < 255) (enabled : s.front.recs[m.chan].enable = true) :
    manualSample m x s =
      setManual { m with measuring := some { count := k + 1, sum := sum + (x[m.chan].get m.gain).toNat } } s := by
  rw [manualSample, if_neg (by omega), sums, ← deliveredCode_enabled enabled]
  exact if_pos (show k + 1 < 256 by omega)

theorem manualSample_ends {sum : Nat} (settled : m.settle = 0) (sums : m.measuring = some { count := 255, sum := sum })
    (enabled : s.front.recs[m.chan].enable = true) :
    manualSample m x s =
      finishTrms .ok
        (u8 m.chan.val ++ u8 (gainCode m.gain) ++ u8 (s.front.dacs[m.chan].get m.gain) ++
          u16 (meanOf 8 (sum + (x[m.chan].get m.gain).toNat)))
        (setManual { m with
          lastMean := meanOf 8 (sum + (x[m.chan].get m.gain).toNat), valid := true, measuring := none } s) := by
  rw [manualSample, if_neg (by omega), sums, ← deliveredCode_enabled enabled]
  exact if_neg (show ¬255 + 1 < 256 by omega)

theorem setManual_runInj (m : ManualTrim) (s : State) :
    (setManual m (runInj s)).trim.engine = .manual m ∧ (setManual m (runInj s)).trim.gains = s.trim.gains ∧
      (setManual m (runInj s)).front = s.front ∧ (setManual m (runInj s)).ped = s.ped ∧
      (setManual m (runInj s)).ctl = s.ctl := by
  simp [setManual, runInj]

theorem gainCode_eq (g : Gain) : gainCode g = if g = .hg then 0 else 1 := by cases g <;> rfl

end

/-- Settles O40: a settle counts, a measurement sums, and its 256th sample sends the reply. -/
theorem manualMeasurementCompletes : Obligations.ManualMeasurementCompletes := by
  intro x s0 m s locked standby manual
  have arrives := sampleArrival_manual (x := x) locked standby manual
  refine ⟨fun last => ?_, ⟨fun more => ?_, fun settled none => ?_, fun k sum settled sums more enabled => ?_⟩,
    fun sum tag settled sums executing enabled => ⟨?_, rfl⟩⟩
  · have due : settleDue s = true := by rw [settleDue, locked, manual]; simp [last]
    have settles : manualSample m x (runInj s) = setManual { m with settle := 0 } (runInj s) := by
      rw [manualSample_settles (by omega), last]
    exact ⟨setManual { m with settle := 0 } (runInj s),
      congrArg Host.Outcome.next ((if_pos due).trans (arrives.trans settles)), setManual_runInj _ s⟩
  · exact congrArg Host.Outcome.next (arrives.trans (manualSample_settles (by omega)))
  · exact congrArg Host.Outcome.next (arrives.trans (manualSample_rests settled none))
  · exact congrArg Host.Outcome.next (arrives.trans (manualSample_sums (s := runInj s) settled sums more enabled))
  · have due : trmsDue s = true := by rw [trmsDue, locked, manual]; simp [settled, sums]
    refine congrArg Host.Outcome.next ((if_pos due).trans (arrives.trans ?_))
    refine (manualSample_ends (s := runInj s) settled sums enabled).trans ?_
    obtain ⟨-, -, -, -, ctl⟩ := setManual_runInj
      { m with lastMean := meanOf 8 (sum + (x[m.chan].get m.gain).toNat), valid := true, measuring := none } s
    refine (finishTrms_trms (tag := tag) _ _ ((congrArg Control.executing ctl).trans executing)).trans ?_
    rw [gainCode_eq]
    rfl

/-! ## The completion of a round (R85 to R89) -/

/-- The searches after a round. -/
def roundSearches (t : LongTrim) (s : State) : Vector (PerGain (Option Search)) 16 :=
  tab fun c => ⟨(roundAt t s c .hg).search, (roundAt t s c .lg).search⟩

/-- What the completion of a round writes, with its occurrences left out. -/
def roundDone (t : LongTrim) (s : State) : State :=
  { s with
    front := { s.front with dacs := tab fun c => ⟨(roundAt t s c .hg).dac, (roundAt t s c .lg).dac⟩ }
    ped := { s.ped with
      chans := tab fun c => { s.ped.chans[c] with
        gains := ⟨{ s.ped.chans[c].gains.hg with p := (roundAt t s c .hg).p, sigma := (roundAt t s c .hg).sigma },
                  { s.ped.chans[c].gains.lg with p := (roundAt t s c .lg).p, sigma := (roundAt t s c .lg).sigma }⟩ } }
    trim :=
      { engine := if noSearch (roundSearches t s) then .idle
          else .long { round := t.round + 1, arrivals := 0, searches := roundSearches t s }
        gains := tab fun c => ⟨(roundAt t s c .hg).info, (roundAt t s c .lg).info⟩ } }

theorem roundDone_rest (t : LongTrim) (s : State) :
    (roundDone t s).pipe = s.pipe ∧ (roundDone t s).clk = s.clk ∧ (roundDone t s).timing = s.timing ∧
      (roundDone t s).tx = s.tx ∧ (roundDone t s).ctl = s.ctl ∧ (roundDone t s).acq = s.acq := by
  simp only [roundDone, and_self]

theorem roundDone_engine (t : LongTrim) (s : State) :
    (roundDone t s).trim.engine = if noSearch (roundSearches t s) then .idle
      else .long { round := t.round + 1, arrivals := 0, searches := roundSearches t s } := by
  rw [roundDone]

/-- The occurrences of the completion of a round, in channel order, HG before LG. -/
def roundConds (t : LongTrim) (s : State) : List Cond :=
  allChans.flatMap fun c => (roundAt t s c .hg).conds ++ (roundAt t s c .lg).conds

theorem completeRound_eq (t : LongTrim) (s : State) :
    completeRound t s = occurAll (roundConds t s) (roundDone t s) := by
  simp only [completeRound, getElem_tab]
  rfl

theorem noSearch_iff (v : Vector (PerGain (Option Search)) 16) :
    noSearch v = true ↔ ∀ (c : Chan) (g : Gain), v[c].get g = none := by
  simp only [noSearch, allChans, List.all_eq_true, Bool.and_eq_true, Option.isNone_iff_eq_none]
  refine ⟨fun none c g => ?_, fun none c _ => ⟨none c .hg, none c .lg⟩⟩
  cases g with
  | hg => exact (none c (List.mem_finRange c)).1
  | lg => exact (none c (List.mem_finRange c)).2

/-- In STANDBY occurrences leave acquisition. -/
theorem occurAll_standby (cs : List Cond) {s : State} (standby : s.acq.state = .standby) : (occurAll cs s).acq = s.acq := by
  induction cs generalizing s with
  | nil => rfl
  | cons c cs ih =>
    have kept : (occur c none s).acq = s.acq := by rw [occur_rested c none (.inl standby), State.mapCond_acq]
    exact (ih (s := occur c none s) (by rw [kept]; exact standby)).trans kept

/-- What the completion of a round leaves, by the result of each channel-gain. -/
structure Rounded (round : Nat) (s v : State) (r : Chan → Gain → RoundResult) : Prop where
  dac : ∀ (c : Chan) (g : Gain), v.front.dacs[c].get g = (r c g).dac
  track : ∀ (c : Chan) (g : Gain), v.ped.chans[c].gains.get g =
    { s.ped.chans[c].gains.get g with p := (r c g).p, sigma := (r c g).sigma }
  settings : ∀ c : Chan, v.ped.chans[c].settings = s.ped.chans[c].settings
  recs : v.front.recs = s.front.recs
  info : ∀ (c : Chan) (g : Gain), v.trim.gains[c].get g = (r c g).info
  idle : (∀ c g, (r c g).search = none) → v.trim.engine = .idle
  goesOn : ∀ c g, (r c g).search ≠ none → ∃ u : LongTrim, v.trim.engine = .long u ∧ u.round = round + 1 ∧
    u.arrivals = 0 ∧ ∀ (d : Chan) (h : Gain), u.searches[d].get h = (r d h).search
  latched : ∀ c g, ∀ k ∈ (r c g).conds, v.cond.recs[k.num].latch = true
  w : v.pipe.w = s.pipe.w
  fill : v.pipe.fill = s.pipe.fill
  acq : v.acq = s.acq
  clk : v.clk = s.clk
  timing : v.timing = s.timing
  buffer : v.tx.buffer = s.tx.buffer
  ctl : v.ctl = s.ctl

theorem roundSearches_get (t : LongTrim) (s : State) (c : Chan) (g : Gain) :
    (roundSearches t s)[c].get g = (roundAt t s c g).search := by
  rw [roundSearches, getElem_tab]
  cases g <;> rfl

theorem completeRound_rounded (t : LongTrim) {s : State} (standby : s.acq.state = .standby) :
    Rounded t.round s (completeRound t s) (roundAt t s) := by
  have only := occurAll_only (roundConds t s) (roundDone t s)
  obtain ⟨pipe, clk, timing, buffer, ctl, kept⟩ := roundDone_rest t s
  have acq := occurAll_standby (roundConds t s) (s := roundDone t s) (by rw [kept]; exact standby)
  have engine := (congrArg Trim.engine only.trim).trans (roundDone_engine t s)
  rw [← completeRound_eq] at only acq engine
  refine ⟨fun c g => ?_, fun c g => ?_, fun c => ?_, ?_, fun c g => ?_, fun none => ?_, fun c g some => ?_, fun c g k found => ?_,
    congrArg Pipeline.w (only.pipe.trans pipe), congrArg Pipeline.fill (only.pipe.trans pipe), acq.trans kept, only.clk.trans clk, only.timing.trans timing,
    (Calm.only only).buffer.trans (congrArg Transmitter.buffer buffer), only.ctl.trans ctl⟩
  · rw [only.front, roundDone, getElem_tab]
    cases g <;> rfl
  · rw [only.ped, roundDone, getElem_tab]
    cases g <;> rfl
  · rw [only.ped, roundDone, getElem_tab]
    rfl
  · rw [only.front]
    rfl
  · rw [only.trim, roundDone, getElem_tab]
    cases g <;> rfl
  · refine engine.trans (if_pos ((noSearch_iff _).2 fun d h => ?_))
    rw [roundSearches_get]
    exact none d h
  · refine ⟨_, engine.trans (if_neg fun none => some ?_), rfl, rfl, fun d h => roundSearches_get t s d h⟩
    rw [← roundSearches_get]
    exact (noSearch_iff _).1 none c g
  · rw [completeRound_eq]
    refine occurAll_latch (List.mem_flatMap.2 ⟨c, List.mem_finRange c, ?_⟩) _
    cases g with
    | hg => exact List.mem_append_left _ found
    | lg => exact List.mem_append_right _ found

/-! ## One sample arrival of a long trim -/

/-- The trim with a sample arrival counted, and added in each channel-gain in progress after the settle (R85). -/
def LongTrim.counted (t : LongTrim) (x : Samples) (s : State) : LongTrim :=
  { t with
    arrivals := t.arrivals + 1
    searches := tab fun c =>
      ⟨addSample (decide (64 < t.arrivals + 1)) (deliveredCode s x c .hg) t.searches[c].hg,
       addSample (decide (64 < t.arrivals + 1)) (deliveredCode s x c .lg) t.searches[c].lg⟩ }

theorem LongTrim.counted_get (t : LongTrim) (x : Samples) (s : State) (c : Chan) (g : Gain) :
    (t.counted x s).searches[c].get g =
      addSample (decide (64 < t.arrivals + 1)) (deliveredCode s x c g) (t.searches[c].get g) := by
  rw [LongTrim.counted, getElem_tab]
  cases g <;> rfl

theorem longSample_eq (t : LongTrim) (x : Samples) (s : State) :
    longSample t x s =
      if t.arrivals + 1 < 320 then s.mapTrim fun u => { u with engine := .long (t.counted x s) }
      else completeRound (t.counted x s) s := rfl

section

variable {x : Samples} {s : State} {t : LongTrim}

theorem sampleArrival_long (locked : s.clk.state = .locked) (standby : s.acq.state = .standby)
    (long : s.trim.engine = .long t) : sampleArrival x s = longSample t x (runInj s) := by
  rw [sampleArrival_unwritten locked (.inl standby), trimSample, show (runInj s).trim.engine = .long t from long]

/-- The result of the round's last sample arrival for a channel-gain. -/
def lastOfRound (t : LongTrim) (x : Samples) (s : State) (c : Chan) (g : Gain) : RoundResult :=
  roundResult ((t.searches[c].get g).map fun q => { q with sum := q.sum + deliveredCode s x c g }) t.round
    (s.front.dacs[c].get g) (s.ped.chans[c].gains.get g).p (s.ped.chans[c].gains.get g).sigma (s.trim.gains[c].get g)

theorem roundAt_last (last : t.arrivals = 319) : roundAt (t.counted x s) s = lastOfRound t x s := by
  funext c g
  rw [roundAt, LongTrim.counted_get, decide_eq_true (by omega)]
  rfl

theorem lastOfRound_none {c : Chan} {g : Gain} (none : t.searches[c].get g = .none) :
    lastOfRound t x s c g =
      { search := .none, dac := s.front.dacs[c].get g, p := (s.ped.chans[c].gains.get g).p,
        sigma := (s.ped.chans[c].gains.get g).sigma, info := s.trim.gains[c].get g, conds := [] } := by
  rw [lastOfRound, none]
  rfl

theorem lastOfRound_some {c : Chan} {g : Gain} {q : Search} (searching : t.searches[c].get g = some q) :
    lastOfRound t x s c g =
      roundOf { q with sum := q.sum + deliveredCode s x c g } t.round (s.ped.chans[c].gains.get g).p
        (s.ped.chans[c].gains.get g).sigma (s.trim.gains[c].get g) := by
  rw [lastOfRound, searching]
  rfl

@[simp] theorem runInj_front (s : State) : (runInj s).front = s.front := rfl
@[simp] theorem runInj_ped (s : State) : (runInj s).ped = s.ped := rfl
@[simp] theorem runInj_trim (s : State) : (runInj s).trim = s.trim := rfl
@[simp] theorem runInj_acq (s : State) : (runInj s).acq = s.acq := rfl
@[simp] theorem runInj_clk (s : State) : (runInj s).clk = s.clk := rfl
@[simp] theorem runInj_timing (s : State) : (runInj s).timing = s.timing := rfl
@[simp] theorem runInj_tx (s : State) : (runInj s).tx = s.tx := rfl
@[simp] theorem runInj_ctl (s : State) : (runInj s).ctl = s.ctl := rfl

theorem lastOfRound_runInj : lastOfRound t x (runInj s) = lastOfRound t x s := by
  funext c g
  simp only [lastOfRound, deliveredCode, runInj_front, runInj_ped, runInj_trim]
  rfl

theorem Rounded.of_runInj {round : Nat} {v : State} {r : Chan → Gain → RoundResult} (h : Rounded round (runInj s) v r) :
    Rounded round s v r where
  dac := h.dac
  track c g := by rw [h.track, runInj_ped]
  settings c := by rw [h.settings, runInj_ped]
  recs := by rw [h.recs, runInj_front]
  info := h.info
  idle := h.idle
  goesOn := h.goesOn
  latched := h.latched
  w := h.w
  fill := h.fill
  acq := by rw [h.acq, runInj_acq]
  clk := by rw [h.clk, runInj_clk]
  timing := by rw [h.timing, runInj_timing]
  buffer := by rw [h.buffer, runInj_tx]
  ctl := by rw [h.ctl, runInj_ctl]

/-- The last sample arrival of a round. -/
theorem sampleArrival_rounded (locked : s.clk.state = .locked) (standby : s.acq.state = .standby)
    (long : s.trim.engine = .long t) (last : t.arrivals = 319) :
    Rounded t.round s (sampleArrival x s) (lastOfRound t x s) := by
  refine Rounded.of_runInj ?_
  have rounded := completeRound_rounded (t.counted x (runInj s)) (s := runInj s) standby
  rw [roundAt_last last, lastOfRound_runInj] at rounded
  rw [sampleArrival_long locked standby long, longSample_eq, if_neg (by omega)]
  exact rounded

theorem roundDue_last (locked : s.clk.state = .locked) (long : s.trim.engine = .long t) (last : t.arrivals = 319) :
    roundDue s = true := by
  rw [roundDue, locked, long]
  simp [last, roundArrivals]

end

/-! ## One channel-gain at the completion of a round (R85 to R88) -/

section

variable {q : Search} {round p sigma : Nat} {info : TrimInfo}

theorem roundOf_search (h : round < q.rounds) :
    roundOf q round p sigma info =
      { search := some { q with value := if meanOf 8 q.sum ≤ 16 * q.target then q.trial round else q.value, sum := 0 }
        dac := ({ q with
          value := if meanOf 8 q.sum ≤ 16 * q.target then q.trial round else q.value, sum := 0 } : Search).trial (round + 1)
        p := p, sigma := sigma, info := info, conds := [] } := if_pos h

theorem roundOf_first (h : round = q.rounds) :
    roundOf q round p sigma info =
      { search := some { q with meanV := meanOf 8 q.sum, sum := 0 }
        dac := ({ q with meanV := meanOf 8 q.sum, sum := 0 } : Search).trial (round + 1)
        p := p, sigma := sigma, info := info, conds := [] } := (if_neg (by omega)).trans (if_pos h)

theorem roundOf_second (h : round = q.rounds + 1) :
    roundOf q round p sigma info = finishSearch q (meanOf 8 q.sum) sigma := (if_neg (by omega)).trans (if_neg (by omega))

theorem trial_search (h : round < q.rounds) : q.trial round = q.value + 2 ^ (q.rounds - 1 - round) := if_pos h

/-- The DAC value of the round after a search round: the next trial, or v. -/
theorem trial_next (h : round < q.rounds) :
    q.trial (round + 1) = if round + 1 < q.rounds then q.value + 2 ^ (q.rounds - 1 - (round + 1)) else q.value := by
  unfold Search.trial
  split
  · rfl
  · rw [if_pos (by omega)]

theorem trial_second : q.trial (q.rounds + 1) = if 247 < q.value then q.value - 8 else q.value + 8 := by
  rw [Search.trial, if_neg (by omega), if_neg (by omega)]

/-- A channel-gain goes on until its second finishing round. -/
theorem roundOf_goesOn (h : round ≤ q.rounds) : (roundOf q round p sigma info).search.isSome = true := by
  rcases Nat.lt_or_eq_of_le h with search | first
  · rw [roundOf_search search]
    rfl
  · rw [roundOf_first first]
    rfl

theorem finishSearch_kept (q : Search) (mean sigma : Nat) :
    (finishSearch q mean sigma).search = none ∧ (finishSearch q mean sigma).dac = q.value ∧
      (finishSearch q mean sigma).p = q.meanV ∧ (finishSearch q mean sigma).info.first = false := by
  unfold finishSearch
  dsimp only
  split <;> exact ⟨rfl, rfl, rfl, rfl⟩

theorem finishSearch_bad {mean : Nat} (h : slopeDifference q mean ≤ 0) :
    finishSearch q mean sigma =
      { search := none, dac := q.value, p := q.meanV, sigma := sigma, info := { first := false, status := .slopeBad },
        conds := [.trimSlope] } := if_pos h

theorem finishSearch_good {mean : Nat} (h : 0 < slopeDifference q mean) :
    finishSearch q mean sigma =
      { search := none, dac := q.value, p := q.meanV,
        sigma := (clampTo 1 255 (roundBy 3 (slopeDifference q mean))).toNat,
        info := { first := false, status := if atLimit q then .limit else .ok },
        conds := if atLimit q then [.trimLimit] else [] } := if_neg (by omega)

theorem atLimit_iff (q : Search) :
    atLimit q = true ↔ (q.value = 0 ∧ 16 * q.target < q.meanV) ∨
      (q.value = 255 ∧ q.meanV + 16 * q.hysteresis < 16 * q.target) := by
  have below : (q.meanV : Int) < 16 * ((q.target : Int) - q.hysteresis) ↔ q.meanV + 16 * q.hysteresis < 16 * q.target := by
    omega
  rw [atLimit, Bool.or_eq_true, decide_eq_true_iff, decide_eq_true_iff, below]

end

end Sys2Proof.Machine
end


section
/-!
The long trim: rounds, their last sample arrival, and an abort.
-/

namespace Sys2Proof.Machine

section

variable {x : Samples} {s : State} {t : LongTrim}

/-- A sample arrival within a round (R85). -/
theorem sampleArrival_counts (locked : s.clk.state = .locked) (standby : s.acq.state = .standby)
    (long : s.trim.engine = .long t) (within : t.arrivals < 319) :
    sampleArrival x s = { runInj s with trim := { s.trim with engine := .long (t.counted x (runInj s)) } } := by
  rw [sampleArrival_long locked standby long, longSample_eq, if_pos (by omega), State.mapTrim, runInj_trim]

theorem deliveredCode_runInj (c : Chan) (g : Gain) : deliveredCode (runInj s) x c g = deliveredCode s x c g := by
  rw [deliveredCode, deliveredCode, runInj_front]

theorem addSample_some (summed : Bool) (n : Nat) (q : Search) :
    addSample summed n (some q) = some (if summed then { q with sum := q.sum + n } else q) := rfl

/-- The abort of a long trim at a departure (R90). -/
theorem clockDeparture_long (long : s.trim.engine = .long t) : clockDeparture s = abortLong t (departing s) := by
  rw [clockDeparture_stages, trimDeparture, departing_trim, long]

/-- The gains of the trim with each channel-gain in progress aborted. -/
def abortedGains (t : LongTrim) (u : Trim) : Trim :=
  { engine := .idle
    gains := tab fun c =>
      ⟨if t.searches[c].hg.isSome then { u.gains[c].hg with status := .aborted } else u.gains[c].hg,
       if t.searches[c].lg.isSome then { u.gains[c].lg with status := .aborted } else u.gains[c].lg⟩ }

theorem abortLong_eq (t : LongTrim) (s : State) : abortLong t s = occur .trimAbort none (s.mapTrim (abortedGains t)) := rfl

theorem abortedGains_get (t : LongTrim) (u : Trim) (c : Chan) (g : Gain) :
    (abortedGains t u).gains[c].get g =
      if (t.searches[c].get g).isSome then { u.gains[c].get g with status := .aborted } else u.gains[c].get g := by
  rw [abortedGains, getElem_tab]
  cases g <;> rfl

end

/-- What the finish of a channel-gain leaves (R88). -/
theorem finishSearch_spec (q : Search) (mean sigma : Nat) :
    let diff := slopeDifference q mean
    let r := finishSearch q mean sigma
    (diff ≤ 0 → r.info.status = .slopeBad ∧ .trimSlope ∈ r.conds ∧ r.sigma = sigma) ∧
      (0 < diff → r.sigma = (clampTo 1 255 (roundBy 3 diff)).toNat ∧
        ((q.value = 0 ∧ 16 * q.target < q.meanV) ∨ (q.value = 255 ∧ q.meanV + 16 * q.hysteresis < 16 * q.target) →
          r.info.status = .limit ∧ .trimLimit ∈ r.conds) ∧
        (¬((q.value = 0 ∧ 16 * q.target < q.meanV) ∨ (q.value = 255 ∧ q.meanV + 16 * q.hysteresis < 16 * q.target)) →
          r.info.status = .ok)) := by
  intro diff r
  refine ⟨fun bad => ?_, fun good => ?_⟩
  · rw [show r = _ from finishSearch_bad bad]
    exact ⟨rfl, List.mem_singleton.2 rfl, rfl⟩
  · rw [show r = _ from finishSearch_good good, ← atLimit_iff]
    refine ⟨rfl, fun limit => ?_, fun inside => ?_⟩
    · simp only [limit, if_true]
      exact ⟨trivial, List.mem_singleton.2 rfl⟩
    · exact if_neg inside

/-- Settles O39: each channel-gain's result at the last sample arrival of a round, by the round it is in. -/
theorem longTrimRounds : Obligations.LongTrimRounds := by
  refine ⟨?_, ?_, ?_, ?_⟩
  · intro x s0 t0 s locked standby long last
    have rounded := sampleArrival_rounded (x := x) locked standby long last
    refine ⟨sampleArrival x s, congrArg Host.Outcome.next (if_pos (roundDue_last locked long last)), ?_, fun c g none => ?_,
      fun c => rounded.settings c, rounded.recs, rounded.w, rounded.fill, rounded.acq, rounded.clk, rounded.timing, rounded.buffer, rounded.ctl⟩
    · by_cases ended : ∀ c g, (lastOfRound t0 x s c g).search = none
      · exact .inl (rounded.idle ended)
      · obtain ⟨c, going⟩ := not_forall.1 ended
        obtain ⟨g, goes⟩ := not_forall.1 going
        obtain ⟨t1, engine, round, arrivals, -⟩ := rounded.goesOn c g goes
        exact .inr ⟨t1, engine, round, arrivals⟩
    · have result := lastOfRound_none (x := x) (s := s) none
      refine ⟨?_, ?_, ?_⟩
      · rw [rounded.dac, result]
      · rw [rounded.track, result]
      · rw [rounded.info, result]
  · intro x s0 t0 c g q s locked standby long last searching enabled mean
    have rounded := sampleArrival_rounded (x := x) locked standby long last
    have runs : exec (.trimRoundComplete x) s0 = .next (sampleArrival x s) :=
      congrArg Host.Outcome.next (if_pos (roundDue_last locked long last))
    have result := lastOfRound_some (x := x) (s := s) searching
    rw [deliveredCode_enabled enabled] at result
    have p := congrArg GainTrack.p (rounded.track c g)
    have sigma := congrArg GainTrack.sigma (rounded.track c g)
    refine ⟨?_, ?_, ?_⟩
    · intro search trial v
      refine ⟨sampleArrival x s, runs, ?_⟩
      replace result := result.trans (roundOf_search (q := { q with sum := q.sum + (x[c].get g).toNat }) search)
      rw [trial_search (q := { q with sum := q.sum + (x[c].get g).toNat }) search] at result
      obtain ⟨t1, engine, round, arrivals, searches⟩ := rounded.goesOn c g (by rw [result]; exact Option.some_ne_none _)
      refine ⟨?_, ⟨t1, engine, round, arrivals, ?_⟩, p.trans (by rw [result]), sigma.trans (by rw [result]), ?_, rounded.w,
        rounded.acq⟩
      · rw [rounded.dac, result]
        exact trial_next (q := { q with value := v, sum := 0 }) search
      · rw [searches, result]
        rfl
      · rw [rounded.info, result]
    · intro first
      refine ⟨sampleArrival x s, runs, ?_⟩
      replace result := result.trans (roundOf_first (q := { q with sum := q.sum + (x[c].get g).toNat }) first)
      obtain ⟨t1, engine, round, arrivals, searches⟩ := rounded.goesOn c g (by rw [result]; exact Option.some_ne_none _)
      refine ⟨?_, ⟨t1, engine, round, arrivals, ?_⟩, p.trans (by rw [result]), sigma.trans (by rw [result]), ?_⟩
      · rw [rounded.dac, result, first]
        exact trial_second (q := { q with meanV := mean, sum := 0 })
      · rw [searches, result]
        rfl
      · rw [rounded.info, result]
    · intro second diff
      refine ⟨sampleArrival x s, runs, ?_⟩
      replace result := result.trans (roundOf_second (q := { q with sum := q.sum + (x[c].get g).toNat }) second)
      obtain ⟨ends, dac, meanV, flag⟩ := finishSearch_kept { q with sum := q.sum + (x[c].get g).toNat } mean
        (s.ped.chans[c].gains.get g).sigma
      obtain ⟨bad, good⟩ := finishSearch_spec { q with sum := q.sum + (x[c].get g).toNat } mean
        (s.ped.chans[c].gains.get g).sigma
      have latched := rounded.latched c g
      have info := rounded.info c g
      have value := rounded.dac c g
      rw [result] at p sigma latched info value
      refine ⟨value.trans dac, (congrArg TrimInfo.first info).trans flag, p.trans meanV, fun low => ?_, fun high => ?_,
        fun every => rounded.idle fun d h => ?_, fun d h q' inRound searching' notLast => ?_⟩
      · obtain ⟨status, slope, kept⟩ := bad low
        exact ⟨(congrArg TrimInfo.status info).trans status, latched .trimSlope slope, sigma.trans kept⟩
      · obtain ⟨slope, limit, inside⟩ := good high
        exact ⟨sigma.trans slope, fun ends => ⟨(congrArg TrimInfo.status info).trans (limit ends).1,
          latched .trimLimit (limit ends).2⟩, fun within => (congrArg TrimInfo.status info).trans (inside within)⟩
      · cases searching' : t0.searches[d].get h with
        | none => rw [lastOfRound_none searching']
        | some q' =>
          rw [lastOfRound_some searching',
            roundOf_second (q := { q' with sum := q'.sum + deliveredCode s x d h }) (every d h q' searching')]
          exact (finishSearch_kept _ _ _).1
      · have goes : (lastOfRound t0 x s d h).search.isSome = true := by
          rw [lastOfRound_some searching']
          have := inRound t0 long d h q' searching'
          exact roundOf_goesOn (show t0.round ≤ q'.rounds by omega)
        obtain ⟨t1, engine, round, arrivals, searches⟩ := rounded.goesOn d h (Option.isSome_iff_ne_none.1 goes)
        refine ⟨t1, engine, round, arrivals, ?_, ?_⟩
        · rw [searches, result]
          exact ends
        · rw [searches]
          exact goes
  · intro x s0 t0 s locked standby long within
    refine ⟨t0.counted x (runInj s), congrArg Host.Outcome.next (sampleArrival_counts locked standby long within), rfl, rfl,
      fun c g => ⟨fun none => ?_, fun q searching enabled => ?_⟩⟩
    · rw [LongTrim.counted_get, none]
      rfl
    · rw [LongTrim.counted_get, searching, addSample_some, deliveredCode_runInj, deliveredCode_enabled enabled]
      by_cases settling : t0.arrivals < 64
      · rw [decide_eq_false (by omega), if_neg Bool.false_ne_true, if_pos settling]
      · rw [decide_eq_true (by omega), if_pos rfl, if_neg settling]
  · intro s0 t0 s locked long
    let u := occur .clkUnlock none (stopClock .acquiring s)
    have only : OnlyConditions (stopClock .acquiring s) u := occur_only _ _ _
    have trim : u.trim = s.trim := only.trim
    have slips : phaseSlip s = occur .trimAbort none ((departing u).mapTrim (abortedGains t0)) := by
      rw [phaseSlip_locked locked, clockDeparture_long (s := u) (t := t0) (by rw [trim]; exact long), abortLong_eq]
    have aborted := occur_only .trimAbort none ((departing u).mapTrim (abortedGains t0))
    have record := occur_rec .trimAbort none ((departing u).mapTrim (abortedGains t0))
    have before : (departing u).cond.recs[Cond.trimAbort.num] = s.cond.recs[Cond.trimAbort.num] := by
      rw [departing_cond]
      exact occur_rec_other .clkUnlock none (stopClock .acquiring s) Cond.trimAbort.num (by decide)
    have gains : (phaseSlip s).trim = abortedGains t0 s.trim := by
      rw [slips, aborted.trim, State.mapTrim_trim, departing_trim, trim]
    refine ⟨phaseSlip s, rfl, ?_, ?_, ?_, ?_, ?_, fun c g => ?_⟩
    · rw [slips, aborted.ped, State.mapTrim_ped, departing_eq]
      exact only.ped
    · rw [slips, aborted.front, State.mapTrim_front, departing_eq]
      exact only.front
    · rw [gains]
      rfl
    · rw [slips]
      exact congrArg CondRec.latch record
    · rw [slips]
      exact (congrArg CondRec.count record).trans (congrArg (fun r => bump 65535 (CondRec.count r)) before)
    · rw [gains]
      exact abortedGains_get t0 s.trim c g

end Sys2Proof.Machine
end


section
/-!
One list entry: its flags, what brings it through, and its words.
-/

namespace Sys2Proof.Machine

/-! ## What an entry is computed from (R103 to R114) -/

/-- The filter set of a gain (R107). -/
def gainSet (rec : ChanRec) (sets : Vector FilterSet 8) : Gain → FilterSet
  | .hg => sets[rec.hgSet]
  | .lg => sets[rec.lgSet]

theorem gainSet_eq (rec : ChanRec) (sets : Vector FilterSet 8) (g : Gain) :
    gainSet rec sets g = if g = .hg then sets[rec.hgSet] else sets[rec.lgSet] := by cases g <;> rfl

section

variable (e : Entry) (snap : ChanSnap) (rec : ChanRec) (sets : Vector FilterSet 8)

/-- The gain used. -/
def entryGain : Gain := gainUsed e.policy (satFlag rec snap.window)

/-- The differences of the gain used. -/
def entryDiffs : List Int := differences (entryGain e snap rec) snap.pedestal snap.window

/-- The weighted sum S_a. -/
def entrySa : Int := weightedSum (gainSet rec sets (entryGain e snap rec)).a (entryDiffs e snap rec)

/-- The weighted sum S_b. -/
def entrySb : Int := weightedSum (gainSet rec sets (entryGain e snap rec)).b (entryDiffs e snap rec)

/-- The amplitude before the clamp. -/
def entryRaw : Int := rawAmplitude (entryGain e snap rec) rec.gainRatio (entrySa e snap rec sets)

/-- The amplitude. -/
def entryAmp : Int := clampTo (-8388608) 8388607 (entryRaw e snap rec sets)

/-- A time is computed. -/
def entryTimed : Bool := hasTime (entryAmp e snap rec sets) (entrySa e snap rec sets) e.timeThreshold

/-- The time in the words of RECON. -/
def entryTime : Int :=
  if entryTimed e snap rec sets then time (entrySa e snap rec sets) (entrySb e snap rec sets) else 0

/-- An entry kept by keep-on-flag alone. -/
def entryKept : Bool :=
  !passes e (entryAmp e snap rec sets) &&
    keptByFlag e (satFlag rec snap.window) (ovfFlag rec snap.window)
      (decide (entryAmp e snap rec sets ≠ entryRaw e snap rec sets)) snap.held snap.stale

/-- The flags of an entry of an enabled channel (R119). -/
def entryFlags : EntryFlags :=
  { sat := satFlag rec snap.window
    ovf := ovfFlag rec snap.window
    clamp := decide (entryAmp e snap rec sets ≠ entryRaw e snap rec sets)
    noTime := !entryTimed e snap rec sets
    tClamp := entryTimed e snap rec sets &&
      decide (time (entrySa e snap rec sets) (entrySb e snap rec sets) ≠
        rawTime (entrySa e snap rec sets) (entrySb e snap rec sets))
    peakOut := decide (peakIndex (entryDiffs e snap rec) < e.peakLo ∨ e.peakHi < peakIndex (entryDiffs e snap rec))
    held := snap.held
    stale := snap.stale
    disabled := false
    trimStep := snap.window.any Slot.trimStep
    inj := snap.window.any Slot.inj
    kept := entryKept e snap rec sets
    forced := forcedFlag e.policy
    gainLg := decide (entryGain e snap rec = .lg) }

/-- The words after the head word. -/
def entryBody : List LinkWord :=
  bodyWords e.mode (entryGain e snap rec) snap.window (entryAmp e snap rec sets) (entryTime e snap rec sets)
    (peakIndex (entryDiffs e snap rec))
    ((snap.window.getD (peakIndex (entryDiffs e snap rec)) Slot.cleared).code (entryGain e snap rec))

theorem computedEntry_eq :
    computedEntry e snap rec sets =
      { flags := entryFlags e snap rec sets
        words :=
          if passes e (entryAmp e snap rec sets) || entryKept e snap rec sets then
            some (emit e.channel e.mode (entryFlags e snap rec sets) (entryBody e snap rec sets))
          else none } := rfl

variable {snap}

theorem reconstruct_enabled (enabled : snap.disabled = false) :
    reconstruct e snap rec sets = computedEntry e snap rec sets := if_neg (by simp [enabled])

theorem reconstruct_disabled (disabled : snap.disabled = true) :
    reconstruct e snap rec sets = disabledEntry e snap := if_pos disabled

end

/-! ## Sums, clamps and the peak -/

theorem differences_eq (g : Gain) (ped : PerGain Nat) (win : List Slot) :
    differences g ped win = win.map fun y => 16 * (((if g = .hg then y.hg else y.lg).toNat : Nat) : Int) - (ped.get g : Int) := by
  cases g <;> rfl

theorem weightedSum_map (cs : List (BitVec 16)) (d : Slot → Int) (win : List Slot) :
    weightedSum cs (win.map d) = (List.zipWith (fun a y => a.toInt * d y) cs win).sum := by
  rw [weightedSum, List.zipWith_map_right]

theorem rawAmplitude_eq (g : Gain) (ratio : Nat) (sa : Int) :
    rawAmplitude g ratio sa = if g = .hg then roundBy 16 sa else roundBy 24 (sa * (ratio : Int)) := by cases g <;> rfl

theorem clampTo_changes (lo hi x : Int) : clampTo lo hi x ≠ x ↔ x < lo ∨ hi < x := by
  unfold clampTo
  split
  · omega
  · split <;> omega

theorem peakFrom_best (k best : Nat) (m : Int) (l : List Int) (h : ∀ x ∈ l, x ≤ m) : peakFrom k best m l = best := by
  induction l generalizing k with
  | nil => rfl
  | cons x l ih =>
    rw [peakFrom, if_neg (Int.not_lt.2 (h x List.mem_cons_self))]
    exact ih (k + 1) fun y later => h y (List.mem_cons_of_mem x later)

/-- v stands at i in l, as the earliest of its largest values. -/
def PeakAt (l : List Int) (i : Nat) (v : Int) : Prop :=
  l[i]? = some v ∧ ∀ (z : Int) (j : Nat), l[j]? = some z → z ≤ v ∧ (j < i → z < v)

theorem PeakAt.le {l : List Int} {i : Nat} {v : Int} (h : PeakAt l i v) : ∀ x ∈ l, x ≤ v := by
  intro x found
  obtain ⟨j, at_⟩ := List.mem_iff_getElem?.1 found
  exact (h.2 x j at_).1

theorem PeakAt.tail {x v : Int} {l : List Int} {i : Nat} (h : PeakAt (x :: l) (i + 1) v) : PeakAt l i v ∧ x < v :=
  ⟨⟨h.1, fun z j at_ => ⟨(h.2 z (j + 1) at_).1, fun before => (h.2 z (j + 1) at_).2 (by omega)⟩⟩,
    (h.2 x 0 rfl).2 (by omega)⟩

theorem peakFrom_reaches {v : Int} {l : List Int} {i : Nat} (h : PeakAt l i v) (k best : Nat) {m : Int} (less : m < v) :
    peakFrom k best m l = k + i := by
  induction l generalizing i k best m with
  | nil => simp [PeakAt] at h
  | cons x l ih =>
    cases i with
    | zero =>
      obtain rfl : x = v := Option.some.inj h.1
      rw [peakFrom, if_pos less, peakFrom_best _ _ _ _ fun y later => h.le y (List.mem_cons_of_mem x later)]
      rfl
    | succ i =>
      obtain ⟨later, below⟩ := h.tail
      rw [peakFrom]
      split
      · rw [ih later (k + 1) k below]
        omega
      · rw [ih later (k + 1) best less]
        omega

/-- The peak index is the place of the earliest largest difference (R114). -/
theorem peakIndex_eq {l : List Int} {i : Nat} {v : Int} (h : PeakAt l i v) : peakIndex l = i := by
  cases l with
  | nil => simp [PeakAt] at h
  | cons x l =>
    cases i with
    | zero =>
      obtain rfl : x = v := Option.some.inj h.1
      exact peakFrom_best 1 0 x l fun y later => h.le y (List.mem_cons_of_mem x later)
    | succ i =>
      obtain ⟨later, below⟩ := h.tail
      rw [peakIndex, peakFrom_reaches later 1 0 below]
      omega

theorem peakAt_map {d : Slot → Int} {win : List Slot} {y : Slot} {i : Nat} (found : win[i]? = some y)
    (largest : ∀ (z : Slot) (j : Nat), win[j]? = some z → d z ≤ d y ∧ (j < i → d z < d y)) :
    PeakAt (win.map d) i (d y) := by
  refine ⟨by rw [List.getElem?_map, found]; rfl, fun z j at_ => ?_⟩
  rw [List.getElem?_map] at at_
  obtain ⟨w, there, rfl⟩ := Option.map_eq_some_iff.1 at_
  exact largest w j there

/-! ## Suppression (R116, R117) -/

theorem passes_iff (e : Entry) (amp : Int) :
    passes e amp = true ↔ e.suppression = .keep ∨ (e.suppression = .above ∧ (e.threshold : Int) ≤ amp) ∨
      (e.suppression = .abs ∧ e.threshold ≤ amp.natAbs) := by
  cases h : e.suppression <;> simp [passes, h]

theorem keptByFlag_iff (e : Entry) (sat ovf clamp held stale : Bool) :
    keptByFlag e sat ovf clamp held stale = true ↔
      e.keepOnFlag = true ∧ (sat = true ∨ ovf = true ∨ clamp = true ∨ held = true ∨ stale = true) := by
  simp only [keptByFlag, Bool.and_eq_true, Bool.or_eq_true, or_assoc]

theorem entryKept_iff (e : Entry) (snap : ChanSnap) (rec : ChanRec) (sets : Vector FilterSet 8) :
    entryKept e snap rec sets = true ↔ ¬passes e (entryAmp e snap rec sets) = true ∧ e.keepOnFlag = true ∧
      ((entryFlags e snap rec sets).sat = true ∨ (entryFlags e snap rec sets).ovf = true ∨
        (entryFlags e snap rec sets).clamp = true ∨ (entryFlags e snap rec sets).held = true ∨
        (entryFlags e snap rec sets).stale = true) := by
  rw [entryKept, Bool.and_eq_true, keptByFlag_iff, Bool.not_eq_true', Bool.not_eq_true]
  rfl

/-- Settles O37: the flags and the test of an enabled channel's entry, each by the law of its part. -/
theorem suppressionDecides : Obligations.SuppressionDecides := by
  refine ⟨?_, ?_⟩
  · intro e snap rec sets enabled res g set amp pass brought
    have computed : res = _ := (reconstruct_enabled e rec sets enabled).trans (computedEntry_eq e snap rec sets)
    have amplitude : entryAmp e snap rec sets = amp := by
      show _ = Machine.amplitude g rec.gainRatio (weightedSum set.a _)
      rw [show set = gainSet rec sets g from (gainSet_eq rec sets g).symm]
      rfl
    have passing : passes e (entryAmp e snap rec sets) = true ↔ pass := amplitude ▸ passes_iff e amp
    have flags := congrArg EntryResult.flags computed
    have words := congrArg EntryResult.words computed
    have kept := entryKept_iff e snap rec sets
    dsimp only at flags words
    clear_value res amp
    rw [passing, ← flags] at kept
    have carrying : entryKept e snap rec sets = true ↔ ¬pass ∧ brought := kept
    clear_value pass brought
    have emitted : (passes e (entryAmp e snap rec sets) || entryKept e snap rec sets) = true ↔ pass ∨ brought := by
      rw [Bool.or_eq_true, passing, carrying]
      tauto
    have kept : res.flags.kept = true ↔ ¬pass ∧ brought := by
      rw [flags]
      exact carrying
    refine ⟨?_, kept, by rw [flags, entryFlags], by rw [flags, entryFlags], by rw [flags, entryFlags]⟩
    rw [words, ← emitted]
    cases passes e (entryAmp e snap rec sets) || entryKept e snap rec sets <;> simp
  · intro e snap rec sets enabled f g d set sa sb raw timed
    have computed : f = entryFlags e snap rec sets :=
      congrArg EntryResult.flags ((reconstruct_enabled e rec sets enabled).trans (computedEntry_eq e snap rec sets))
    have gain : g = entryGain e snap rec := by
      show gainUsed e.policy f.sat = _
      rw [computed]
      rfl
    have diffs : entryDiffs e snap rec = snap.window.map d := by
      rw [entryDiffs, differences_eq, ← gain]
    have first : entrySa e snap rec sets = sa := by
      rw [entrySa, diffs, weightedSum_map, gainSet_eq, ← gain]
    have second : entrySb e snap rec sets = sb := by
      rw [entrySb, diffs, weightedSum_map, gainSet_eq, ← gain]
    have unclamped : entryRaw e snap rec sets = raw := by
      rw [entryRaw, rawAmplitude_eq, ← gain, first]
    have timing : entryTimed e snap rec sets = true ↔ timed := by
      rw [entryTimed, hasTime, entryAmp, unclamped, first, decide_eq_true_iff]
    clear_value sa sb raw
    subst first second unclamped
    clear_value g d set f
    subst computed
    refine ⟨?_, ?_, ?_, ?_, ?_, ?_, ?_, fun y i found largest => ?_, ?_, ?_⟩
    · simp only [entryFlags, satFlag, List.any_eq_true, decide_eq_true_iff]
    · simp only [entryFlags, ovfFlag, List.any_eq_true, decide_eq_true_iff]
    · simp only [entryFlags, gain, decide_eq_true_iff]
    · cases policy : e.policy <;> simp [entryFlags, forcedFlag, policy]
    · simp only [entryFlags, decide_eq_true_iff]
      exact clampTo_changes _ _ _
    · simp only [entryFlags, Bool.not_eq_true', ← timing, Bool.not_eq_true]
    · simp only [entryFlags, Bool.and_eq_true, timing, decide_eq_true_iff]
      exact and_congr_right fun _ => clampTo_changes _ _ _
    · have peak := peakIndex_eq (peakAt_map found largest)
      simp only [entryFlags, diffs, peak, decide_eq_true_iff]
    · simp only [entryFlags, List.any_eq_true]
    · simp only [entryFlags, List.any_eq_true]

end Sys2Proof.Machine
end


section
/-!
The words of an emitted entry, and the entry of a DISABLED channel.
-/

namespace Sys2Proof.Machine

/-! ## The raw words (R122, R123) -/

/-- The two halves of each word. -/
def wordHalves (l : List LinkWord) : List (BitVec 16) := l.flatMap fun w => [w.extractLsb' 16 16, w.extractLsb' 0 16]

theorem wordHalves_cons (a b : BitVec 16) (l : List LinkWord) : wordHalves ((a ++ b) :: l) = a :: b :: wordHalves l := by
  have high : (a ++ b : BitVec 32).extractLsb' 16 16 = a := BitVec.extractLsb'_append_eq_left
  have low : (a ++ b : BitVec 32).extractLsb' 0 16 = b := BitVec.extractLsb'_append_eq_right
  rw [wordHalves, List.flatMap_cons, high, low]
  rfl

theorem wordHalves_append (l k : List LinkWord) : wordHalves (l ++ k) = wordHalves l ++ wordHalves k := List.flatMap_append

/-- The filler half where the window is odd (R122). -/
def filler (n : Nat) : List (BitVec 16) := if n % 2 = 1 then [0x9000#16] else []

theorem wordHalves_rawWords (g : Gain) (win : List Slot) :
    wordHalves (rawWords g win) = win.map (rawHalf g) ++ filler win.length := by
  induction win using rawWords.induct with
  | case1 => rfl
  | case2 y => exact wordHalves_cons _ _ []
  | case3 y z win ih =>
    have same : filler (y :: z :: win).length = filler win.length := by
      have parity : (win.length + 1 + 1) % 2 = win.length % 2 := by omega
      simp only [filler, List.length_cons, parity]
    rw [rawWords, wordHalves_cons, ih, same]
    rfl

theorem rawWords_length (g : Gain) (win : List Slot) : (rawWords g win).length = (win.length + 1) / 2 := by
  induction win using rawWords.induct with
  | case1 => rfl
  | case2 y => simp [rawWords]
  | case3 y z win ih =>
    rw [rawWords, List.length_cons, ih, List.length_cons, List.length_cons]
    omega

/-! ## The number of words (R124) -/

/-- The words of an emitted entry of a mode whose window holds n slots. -/
def modeLength (n : Nat) : Mode → Nat
  | .flags => 1
  | .recon => 3
  | .reconRaw => 3 + (n + 1) / 2
  | .rawSel => 1 + (n + 1) / 2
  | .rawBoth => 1 + 2 * ((n + 1) / 2)

theorem bodyWords_length (m : Mode) (g : Gain) (win : List Slot) (amp t : Int) (peak : Nat) (code : Code) :
    1 + (bodyWords m g win amp t peak code).length = modeLength win.length m := by
  cases m with
  | flags => rfl
  | recon => rfl
  | reconRaw =>
    rw [bodyWords, List.length_append, rawWords_length]
    show 1 + (2 + _) = 3 + _
    omega
  | rawSel => rw [bodyWords, rawWords_length]; rfl
  | rawBoth =>
    rw [bodyWords, List.length_append, rawWords_length, rawWords_length]
    show _ = 1 + 2 * _
    omega

theorem emit_length (c : Chan) (m : Mode) (f : EntryFlags) (body : List LinkWord) :
    (emit c m f body).length = 1 + body.length := by
  rw [emit, List.length_cons, Nat.add_comm]

section

variable {e : Entry} {snap : ChanSnap} {rec : ChanRec} {sets : Vector FilterSet 8} {ws : List LinkWord}

/-- An emitted entry of an enabled channel is its head word and the words of its mode. -/
theorem reconstruct_words (enabled : snap.disabled = false) (emitted : (reconstruct e snap rec sets).words = some ws) :
    ws = emit e.channel e.mode (entryFlags e snap rec sets) (entryBody e snap rec sets) := by
  rw [reconstruct_enabled e rec sets enabled, computedEntry_eq] at emitted
  dsimp only at emitted
  split at emitted
  · exact (Option.some.inj emitted).symm
  · cases emitted

theorem reconstruct_flags (enabled : snap.disabled = false) :
    (reconstruct e snap rec sets).flags = entryFlags e snap rec sets := by
  rw [reconstruct_enabled e rec sets enabled, computedEntry_eq]

/-- The one word of an emitted entry of a DISABLED channel (R102). -/
theorem reconstruct_disabled_words (disabled : snap.disabled = true)
    (emitted : (reconstruct e snap rec sets).words = some ws) :
    ws = [headWord e.channel .flags 1 (reconstruct e snap rec sets).flags] := by
  rw [reconstruct_disabled e rec sets disabled] at emitted ⊢
  unfold disabledEntry at emitted ⊢
  dsimp only at emitted ⊢
  split at emitted
  · exact (Option.some.inj emitted).symm
  · cases emitted

end

end Sys2Proof.Machine

namespace Sys2Proof.Machine

/-- Settles O38: the head word and the mode's words of an emitted entry, and the one word of a DISABLED channel's. -/
theorem emittedEntries : Obligations.EmittedEntries := by
  refine ⟨?_, ?_⟩
  · intro e snap rec sets ws enabled _ emitted
    have words := reconstruct_words enabled emitted
    have length : ws.length = modeLength snap.window.length e.mode := by
      rw [words, emit_length]
      exact bodyWords_length _ _ _ _ _ _ _
    refine ⟨?_, ?_⟩
    · rw [length]
      cases e.mode <;> rfl
    · intro res g code half halves split
      have flags : res.flags = entryFlags e snap rec sets := reconstruct_flags enabled
      have gain : g = entryGain e snap rec := rfl
      have raws : ∀ k : Gain, split (rawWords k snap.window) = halves k := by
        intro k
        refine (wordHalves_rawWords k snap.window).trans ?_
        cases k <;> rfl
      have selected : split (rawWords (entryGain e snap rec) snap.window) = halves g := raws g
      clear_value res g
      subst gain
      have bits : res.flags.bits = _ := rfl
      refine ⟨entryBody e snap rec sets, ?_, bits, ?_, fun mode => ?_, fun mode => ?_, fun mode => ?_, fun mode => ?_⟩
      · have number : 1 + (entryBody e snap rec sets).length = ws.length := by rw [words, emit_length]
        rw [flags, ← number]
        refine words.trans ?_
        rw [emit, headWord]
        cases e.mode <;> rfl
      · rw [flags]
        rfl
      · rw [entryBody, mode]
        exact selected
      · rw [entryBody, mode]
        exact (wordHalves_append _ _).trans (congrArg₂ (· ++ ·) (raws .hg) (raws .lg))
      · rw [entryBody, mode]
        exact selected
      · intro d set sa sb amp time y i found largest
        let k := entryGain e snap rec
        have diffs : entryDiffs e snap rec = snap.window.map d := by
          rw [entryDiffs, differences]
          refine List.map_congr_left fun w _ => ?_
          show 16 * ((w.code k).toNat : Int) - _ = 16 * ((code k w).toNat : Int) - _
          cases k <;> rfl
        have first : entrySa e snap rec sets = sa := by rw [entrySa, diffs, weightedSum_map, gainSet_eq]
        have second : entrySb e snap rec sets = sb := by rw [entrySb, diffs, weightedSum_map, gainSet_eq]
        have amplitude : entryAmp e snap rec sets = amp := by rw [entryAmp, entryRaw, rawAmplitude_eq, first]
        have timing : entryTime e snap rec sets = time := by
          rw [entryTime, entryTimed, hasTime, amplitude, first, second]
          exact if_congr decide_eq_true_iff rfl rfl
        have peak : peakIndex (entryDiffs e snap rec) = i := by
          rw [diffs]
          exact peakIndex_eq (peakAt_map found largest)
        have there : snap.window.getD i Slot.cleared = y := by rw [List.getD_eq_getElem?_getD, found]; rfl
        have codes : y.code k = code k y := by cases k <;> rfl
        have pair : ∀ l, ([ampWord amp i, timeWord time (y.code k)] ++ l).take 2 =
            [ampWord amp i, timeWord time (code k y)] := fun l => by rw [codes]; rfl
        rw [entryBody, amplitude, timing, peak, there]
        rcases mode with mode | mode <;> rw [mode]
        · exact pair []
        · exact pair (rawWords k snap.window)
  · intro e snap rec sets disabled ws emitted
    refine ⟨reconstruct_disabled_words disabled emitted, ?_⟩
    rw [reconstruct_disabled e rec sets disabled, disabledEntry]

end Sys2Proof.Machine
end


section
/-!
How far the builder goes on of itself: where it rests, what one append and one record start leave, and the chains of them
that one event brings about.
-/

namespace Sys2Proof.Machine

/-! ## Steps of the builder (R141, R143 to R145) -/

section

variable {s t : State} {b : Build} {r : Record} {rest : List Record} {n : Nat}

/-- The builder, left to itself in `s`, does `n` things and then rests in `t`. -/
def RestsAfter (n : Nat) (s t : State) : Prop := ∀ k, runBuilder (n + k) s = t

namespace RestsAfter

theorem building (state : s.builder.state = .building b) (busy : s.builder.inFlight.isSome = true) : RestsAfter 0 s s := by
  have more : buildDone s = false := by rw [buildDone, ← Option.not_isSome, busy]; rfl
  rintro (_ | k)
  · rfl
  · rw [Nat.zero_add, runBuilder, state]
    exact if_neg (by simp [more])

theorem ready (state : s.builder.state = .ready b) (long : fits b s = false) : RestsAfter 0 s s := by
  rintro (_ | k)
  · rfl
  · rw [Nat.zero_add, runBuilder, state]
    exact if_neg (by simp [long])

theorem idle (state : s.builder.state = .idle) (records : s.aq.records = []) : RestsAfter 0 s s := by
  rintro (_ | k)
  · rfl
  · rw [Nat.zero_add, runBuilder, state, records]

theorem start (state : s.builder.state = .idle) (records : s.aq.records = r :: rest) (h : RestsAfter n (startRecord r s) t) :
    RestsAfter (n + 1) s t := by
  intro k
  rw [Nat.add_right_comm, runBuilder, state, records]
  exact h k

theorem done (state : s.builder.state = .building b) (computed : s.builder.inFlight = none)
    (h : RestsAfter n (s.mapBuilder fun _ => { state := .ready b, inFlight := none }) t) : RestsAfter (n + 1) s t := by
  intro k
  rw [Nat.add_right_comm, runBuilder, state]
  exact (if_pos (by rw [buildDone, computed]; rfl)).trans (h k)

theorem append (state : s.builder.state = .ready b) (room : fits b s = true) (h : RestsAfter n (appendFragment b s) t) :
    RestsAfter (n + 1) s t := by
  intro k
  rw [Nat.add_right_comm, runBuilder, state]
  exact (if_pos room).trans (h k)

theorem settles (h : RestsAfter n s t) (enough : n ≤ 3 * s.aq.records.length + 3) : settleBuilder s = t := by
  obtain ⟨k, total⟩ := Nat.exists_eq_add_of_le enough
  rw [settleBuilder, total]
  exact h k

end RestsAfter

theorem fits_iff : fits b s = true ↔ s.tx.buffer.length + (5 + b.words.length) ≤ 4096 := decide_eq_true_iff

theorem fits_not : fits b s = false ↔ 4096 < s.tx.buffer.length + (5 + b.words.length) := by
  rw [← Bool.not_eq_true, fits_iff, Nat.not_le]

/-! ## A record start (R137, R141, R142) -/

/-- The build that a record start begins. -/
def newBuild (r : Record) (l : ReadoutList) : Build :=
  { record := r, generation := l.entered.generation, listNew := l.entered.swap, words := [], emitted := 0, suppressed := 0,
    position := 0, flags := 0 }

theorem ReadoutList.entered_active (l : ReadoutList) : l.entered.active = if l.pending then l.staged else l.active := by
  unfold ReadoutList.entered; split <;> rfl

theorem ReadoutList.entered_generation (l : ReadoutList) :
    l.entered.generation = if l.pending then l.generation + 1 else l.generation := by
  unfold ReadoutList.entered; split <;> rfl

theorem ReadoutList.entered_swap (l : ReadoutList) : l.entered.swap = (l.pending || l.swap) := by
  unfold ReadoutList.entered; cases l.pending <;> rfl

/-- A commit that is applied, if one is pending, and the swap mark cleared by the append that follows. -/
theorem ReadoutList.entered_cleared (l : ReadoutList) :
    { l.entered with swap := false } =
      { (if l.pending then { l with active := l.staged, generation := l.generation + 1, pending := false } else l) with
        swap := false } := by
  unfold ReadoutList.entered
  split <;> rfl

theorem newBuild_eq (r : Record) (l : ReadoutList) :
    newBuild r l =
      { record := r, generation := if l.pending then l.generation + 1 else l.generation, listNew := l.pending || l.swap,
        words := [], emitted := 0, suppressed := 0, position := 0, flags := 0 } := by
  rw [newBuild, l.entered_generation, l.entered_swap]

theorem startRecord_exact (r : Record) (s : State) :
    startRecord r s =
      { s with
        list := s.list.entered
        builder :=
          { state := .building (newBuild r s.list)
            inFlight := handEntry r 0 { s with list := s.list.entered } } } := by
  unfold startRecord newBuild ReadoutList.entered
  dsimp only
  split <;> rfl

theorem handEntry_full {k : Fin 16} (full : r.kind = .full k) (pos : Nat) :
    handEntry r pos s = s.list.active[pos]?.map fun e => { entry := e, event := r.event, slot := k } := by
  rw [handEntry, full]

/-- A NOSNAP record, or an empty active list, hands over no entry (R142). -/
theorem handEntry_none (h : r.kind.slot? = none ∨ s.list.active = []) : handEntry r 0 s = none := by
  unfold handEntry
  split
  · rfl
  · next slot full =>
    rcases h with none | empty
    · rw [full] at none
      exact absurd none (by simp [RecordKind.slot?])
    · rw [empty]; rfl

/-- The readout list and the builder after the start of a record whose first entry is handed over. -/
theorem startRecord_handed {k : Fin 16} {x : Entry} {xs : List Entry} (full : r.kind = .full k)
    (entries : s.list.entered.active = x :: xs) :
    startRecord r s =
      { s with
        list := s.list.entered
        builder :=
          { state := .building (newBuild r s.list), inFlight := some { entry := x, event := r.event, slot := k } } } := by
  rw [startRecord_exact, handEntry_full full]
  dsimp only
  rw [entries]
  rfl

/-- A record that has no entry computed is READY with the words of its header and trailer alone (R143). -/
def readyAtOnce (r : Record) (s : State) : State :=
  { s with list := s.list.entered, builder := { state := .ready (newBuild r s.list), inFlight := none } }

theorem RestsAfter.start_ready (state : s.builder.state = .idle) (records : s.aq.records = r :: rest)
    (none : r.kind.slot? = none ∨ s.list.entered.active = []) (h : RestsAfter n (readyAtOnce r s) t) :
    RestsAfter (n + 2) s t := by
  refine .start state records (.done (b := newBuild r s.list) ?_ ?_ ?_) <;> rw [startRecord_exact]
  · exact handEntry_none none
  · exact h

/-! ## An append (R67, R68, R145) -/

/-- What the append of the head record's fragment leaves, where draining does not end by it. -/
structure Appended (b : Build) (r : Record) (rest : List Record) (s t : State) : Prop where
  buffer : t.tx.buffer = s.tx.buffer ++ fragmentWords b s.cond.summary s.tx.sourceId
  records : t.aq.records = rest
  snaps : ∀ k : Fin 16, t.aq.snaps[k] = if r.kind = .full k then none else s.aq.snaps[k]
  throttleKept : r.kind.slot? = none ∨ s.acq.state = .suspended ∨ s.aq.lo < slotsInUse t → t.aq.throttle = s.aq.throttle
  throttleOff : r.kind.slot? ≠ none → s.acq.state ≠ .suspended → slotsInUse t ≤ s.aq.lo → t.aq.throttle = false
  gap : t.aq.gap = s.aq.gap
  lo : t.aq.lo = s.aq.lo
  cond : t.cond =
    { s.cond with counters := { s.cond.counters with
        frags := s.cond.counters.frags + 1
        words := s.cond.counters.words + BitVec.ofNat 32 (5 + b.words.length) } }
  list : t.list = { s.list with swap := false }
  builder : t.builder = { state := .idle, inFlight := none }
  acq : t.acq = s.acq
  inj : t.inj = s.inj
  pipe : t.pipe = s.pipe
  ctl : t.ctl = s.ctl
  begun : t.tx.begun = s.tx.begun
  sourceId : t.tx.sourceId = s.tx.sourceId

theorem dropHead_snaps (r : Record) (rest : List Record) (q : AcceptQueue) (k : Fin 16) :
    (dropHead r rest q).snaps[k] = if r.kind = .full k then none else q.snaps[k] := by
  unfold dropHead
  split
  · next kind => rw [kind, if_neg (by simp)]
  · next slot kind =>
    rw [kind, getElem_put]
    simp [eq_comm]

theorem dropHead_lo (r : Record) (rest : List Record) (q : AcceptQueue) : (dropHead r rest q).lo = q.lo := by
  unfold dropHead; split <;> rfl

theorem dropHead_gap (r : Record) (rest : List Record) (q : AcceptQueue) : (dropHead r rest q).gap = q.gap := by
  unfold dropHead; split <;> rfl

theorem removeHead_nosnap (records : s.aq.records = r :: rest) (none : r.kind.slot? = none) :
    removeHead s = s.mapAq (dropHead r rest) := by
  cases kind : r.kind with
  | nosnap reason => simp only [removeHead, records, kind, dropHead, State.mapAq]
  | full slot =>
    rw [kind] at none
    exact absurd none (by simp [RecordKind.slot?])

theorem removeHead_full (records : s.aq.records = r :: rest) (slot : r.kind.slot? ≠ none) :
    removeHead s = throttleRelax (s.mapAq (dropHead r rest)) := by
  cases kind : r.kind with
  | nosnap reason =>
    rw [kind] at slot
    exact absurd rfl slot
  | full slot => simp only [removeHead, records, kind, dropHead, State.mapAq]

/-- The throttle after the head record has left: it stays, or goes off where the slots in use fall to lo (R67, R68). -/
def releasedThrottle (r : Record) (rest : List Record) (s : State) : Bool :=
  if r.kind.slot? = none ∨ s.acq.state = .suspended ∨ s.aq.lo < slotsInUse (s.mapAq (dropHead r rest)) then s.aq.throttle
  else false

theorem throttleRelax_result (s : State) :
    ∃ wf, throttleRelax s =
      setThrottle (if s.acq.state = .suspended ∨ s.aq.lo < slotsInUse s then s.aq.throttle else false) wf s := by
  by_cases stays : s.acq.state = .suspended ∨ s.aq.lo < slotsInUse s
  · have same : throttleRelax s = s := if_neg fun low => stays.elim low.1 (Nat.not_lt.2 low.2)
    rw [if_pos stays, same]
    exact ⟨_, (setThrottle_same rfl).symm⟩
  · have off : throttleRelax s = throttleOff s := if_pos ⟨fun h => stays (.inl h), Nat.not_lt.1 fun h => stays (.inr h)⟩
    rw [if_neg stays, off, throttleOff_exact]
    exact ⟨_, rfl⟩

theorem removeHead_exact (records : s.aq.records = r :: rest) :
    ∃ wf, removeHead s = setThrottle (releasedThrottle r rest s) wf (s.mapAq (dropHead r rest)) := by
  have throttle : (dropHead r rest s.aq).throttle = s.aq.throttle := (dropHead_other r rest s.aq).2.2
  have lo : (dropHead r rest s.aq).lo = s.aq.lo := dropHead_lo r rest s.aq
  by_cases none : r.kind.slot? = none
  · rw [removeHead_nosnap records none, releasedThrottle, if_pos (.inl none)]
    exact ⟨_, (setThrottle_same (s := s.mapAq (dropHead r rest)) throttle).symm⟩
  · obtain ⟨wf, relaxed⟩ := throttleRelax_result (s.mapAq (dropHead r rest))
    rw [State.mapAq, throttle, lo] at relaxed
    rw [removeHead_full records none, releasedThrottle]
    simp only [none, false_or]
    exact ⟨wf, relaxed⟩

/-- A removal and the close of the build, part by part. -/
theorem closeBuild_exact (th : Bool) (wf : Option ThrottleFrame) (f : AcceptQueue → AcceptQueue) (s : State) :
    closeBuild (setThrottle th wf (s.mapAq f)) =
      { s with
        aq := { f s.aq with throttle := th }
        tx := { s.tx with waitingFrame := wf }
        list := { s.list with swap := false }
        builder := { state := .idle, inFlight := none } } := rfl

theorem appendWords_tx (b : Build) (s : State) :
    (appendWords b s).tx = { s.tx with buffer := s.tx.buffer ++ fragmentWords b s.cond.summary s.tx.sourceId } := rfl

theorem appendFragment_appended (records : s.aq.records = r :: rest) (goes : s.acq.state ≠ .draining ∨ rest ≠ []) :
    Appended b r rest s (appendFragment b s) := by
  obtain ⟨wf, removed⟩ := removeHead_exact (s := appendWords b s) records
  have stays : appendFragment b s =
      closeBuild (setThrottle (releasedThrottle r rest (appendWords b s)) wf ((appendWords b s).mapAq (dropHead r rest))) := by
    rw [appendFragment_stages, removed]
    rcases goes with running | owing
    · exact drainTest_other running
    · refine drainTest_owing (Bool.eq_false_iff.2 fun done => owing ?_)
      exact (dropHead_records r rest s.aq).symm.trans ((drained_iff _).1 done).1
  rw [stays, closeBuild_exact]
  exact
    { buffer := congrArg Transmitter.buffer (appendWords_tx b s)
      records := dropHead_records r rest s.aq
      snaps := dropHead_snaps r rest s.aq
      throttleKept := fun h => if_pos h
      throttleOff := fun slot running low =>
        if_neg fun h => h.elim slot fun h => h.elim running (Nat.not_lt.2 low)
      gap := dropHead_gap r rest s.aq
      lo := dropHead_lo r rest s.aq
      cond := rfl
      list := rfl
      builder := rfl
      acq := rfl
      inj := rfl
      pipe := rfl
      ctl := rfl
      begun := rfl
      sourceId := rfl }

/-- An append after which the list is empty: the builder rests. -/
theorem Appended.rests (h : Appended b r [] s t) : RestsAfter 0 t t :=
  .idle (congrArg Builder.state h.builder) h.records

end

/-! ## The settling theorem for record starts -/

/-- Settles O27: with an entry handed over the builder rests in the build; without one the build is done at once and its
fragment appended. -/
theorem recordStartBeginsBuild : Obligations.RecordStartBeginsBuild := by
  have runs (s : State) (r : Record) (rest : List Record) (idle : s.builder.state = .idle)
      (records : s.aq.records = r :: rest) : recordStart s = settleBuilder s := by
    simp only [recordStart, idle, records]
  refine ⟨?_, ?_⟩
  · intro s0 r rest k e es s idle records full entries
    have handed := startRecord_handed full (s.list.entered_active.trans entries)
    have settled : settleBuilder s = startRecord r s :=
      (RestsAfter.start idle records (.building (b := newBuild r s.list) (by rw [handed]) (by rw [handed]; rfl))).settles
        (by omega)
    show Host.Outcome.next (recordStart s) = _
    rw [runs s r rest idle records, settled, handed, newBuild_eq]
    rfl
  · intro s0 r s idle records empty room running
    have none := empty.imp_right s.list.entered_active.trans
    have appended : Appended (newBuild r s.list) r [] (readyAtOnce r s) _ := appendFragment_appended records (.inl running)
    have settled : settleBuilder s = appendFragment (newBuild r s.list) (readyAtOnce r s) :=
      (RestsAfter.start_ready idle records none (.append rfl (fits_iff.2 room) appended.rests)).settles (by omega)
    refine ⟨_, congrArg Host.Outcome.next ((runs s r [] idle records).trans settled), appended.records, appended.builder,
      appended.list.trans s.list.entered_cleared, ?_, appended.snaps, appended.cond⟩
    rw [appended.list]
    refine appended.buffer.trans ?_
    rw [newBuild, s.list.entered_swap]
    rfl

end Sys2Proof.Machine
end


section
/-!
The completion of an entry.
-/

namespace Sys2Proof.Machine

/-! ## What an entry hands over (R118, R125, R142) -/

section

variable {s u t : State} {b : Build} {res : EntryResult} {ev : EventNum} {n : Nat}

theorem OnlyConditions.sourceId (h : OnlyConditions s t) : t.tx.sourceId = s.tx.sourceId := by
  obtain ⟨_, _, _, _, rfl⟩ := h; rfl
theorem Calm.snaps (h : Calm s t) : t.aq.snaps = s.aq.snaps := (congrArg AcceptQueue.snaps h.aq :)

theorem CondTable.summary_congr {c d : CondTable} (h : c.recs = d.recs) : c.summary = d.summary := by
  unfold CondTable.summary CondTable.raised
  rw [h]

/-- What the occurrences of an entry leave: SUPPRESSED counts a suppressed one, and OVF is LG_OVF. -/
structure EntryCounted (ev : EventNum) (res : EntryResult) (s u : State) : Prop where
  only : OnlyConditions s u
  draining : u.acq.state = .draining → s.acq.state = .draining
  counters : u.cond.counters =
    { s.cond.counters with suppressed := s.cond.counters.suppressed + if res.words = none then 1 else 0 }
  latch : res.flags.ovf = true → u.cond.recs[(7 : Fin 25)].latch = true ∧
    (s.cond.recs[(7 : Fin 25)].latch = false → u.cond.recs[(7 : Fin 25)].first = some ev)
  recs : res.flags.ovf = false → u.cond.recs = s.cond.recs

/-- SUPPRESSED counts an entry without words. -/
def countSuppressed (res : EntryResult) (s : State) : State :=
  if res.words.isNone then tally (fun c => { c with suppressed := c.suppressed + 1 }) s else s

theorem countSuppressed_cond (res : EntryResult) (s : State) :
    (countSuppressed res s).cond.recs = s.cond.recs ∧
      (countSuppressed res s).cond.counters =
        { s.cond.counters with suppressed := s.cond.counters.suppressed + if res.words = none then 1 else 0 } := by
  unfold countSuppressed
  cases res.words with
  | none => exact ⟨rfl, rfl⟩
  | some ws => exact ⟨rfl, by simp⟩

theorem countSuppressed_only (res : EntryResult) (s : State) : OnlyConditions s (countSuppressed res s) := by
  unfold countSuppressed
  split
  · exact tally_only _ s
  · exact .refl s

theorem entryOccurrences_counted (ev : EventNum) (res : EntryResult) (s : State) :
    EntryCounted ev res s (entryOccurrences ev res s) := by
  obtain ⟨recs, counters⟩ := countSuppressed_cond res s
  have stages : entryOccurrences ev res s = occurIf res.flags.ovf .lgOvf (some ev) (countSuppressed res s) := rfl
  exact
    { only := stages ▸ (countSuppressed_only res s).trans (occurIf_only _ _ _ _)
      draining := (entryOccurrences_leavesWork ev res s).2.2.2.2
      counters := by rw [stages, occurIf_counters, counters]
      latch := fun ovf => by
        have row := occurIf_rec true .lgOvf (some ev) (countSuppressed res s)
        rw [recs, if_pos rfl] at row
        rw [stages, ovf]
        exact ⟨(congrArg CondRec.latch row).trans rfl,
          fun clear => (congrArg CondRec.first row).trans (if_neg (Bool.eq_false_iff.1 clear))⟩
      recs := fun clear => by
        rw [stages, clear]
        exact recs }

/-- The build after an entry: its words, flags and count if it was emitted, a suppressed count otherwise. -/
def takenBuild (b : Build) (res : EntryResult) : Build :=
  match res.words with
  | some ws =>
    { b with
      words := b.words ++ ws, emitted := b.emitted + 1, position := b.position + 1, flags := b.flags ||| res.flags.bits }
  | none => { b with suppressed := b.suppressed + 1, position := b.position + 1 }

theorem takeResult_exact (b : Build) (res : EntryResult) (s : State) :
    takeResult b res s =
      { s with
        builder := { state := .building (takenBuild b res), inFlight := handEntry b.record (b.position + 1) s } } := by
  unfold takeResult takenBuild
  cases res.words <;> rfl

theorem handEntry_last {r : Record} {pos : Nat} (last : s.list.active[pos]? = none) : handEntry r pos s = none := by
  unfold handEntry
  rw [last]
  split <;> rfl

/-- The last entry makes the fragment READY (R143). -/
def lastTaken (b : Build) (res : EntryResult) (s : State) : State :=
  { s with builder := { state := .ready (takenBuild b res), inFlight := none } }

theorem RestsAfter.lastEntry (last : s.list.active[b.position + 1]? = none) (h : RestsAfter n (lastTaken b res s) t) :
    RestsAfter (n + 1) (takeResult b res s) t := by
  rw [takeResult_exact, handEntry_last last]
  exact .done (b := takenBuild b res) rfl rfl h

theorem completeEntry_exact {f : InFlight} {snap : Snapshot} (building : s.builder.state = .building b)
    (flight : s.builder.inFlight = some f) (held : s.aq.snaps[f.slot] = some snap)
    (result : res = reconstruct f.entry snap[f.entry.channel] s.front.recs[f.entry.channel] s.filt.sets) :
    completeEntry s = settleBuilder (takeResult b res (entryOccurrences f.event res s)) := by
  subst result
  have found : entryResult f s =
      some (reconstruct f.entry snap[f.entry.channel] s.front.recs[f.entry.channel] s.filt.sets) :=
    (congrArg (Option.map _) held).trans rfl
  simp only [completeEntry, building, flight, found]

end

/-! ## The settling theorem -/

/-- Settles O28: the occurrences first, then the result at the builder, which goes on with the next entry or settles. -/
theorem entryCompletionTakesResult : Obligations.EntryCompletionTakesResult := by
  refine ⟨?_, ?_, ?_⟩
  · intro s0 b f snap k next res s building flight held full more result
    have counted := entryOccurrences_counted f.event res s
    have completes := completeEntry_exact building flight held result
    generalize entryOccurrences f.event res s = u at counted completes
    have calm := Calm.only counted.only
    have handed : handEntry b.record (b.position + 1) u = some { entry := next, event := b.record.event, slot := k } := by
      rw [handEntry_full full, counted.only.list, more]
      rfl
    have taken := takeResult_exact b res u
    rw [handed] at taken
    rw [taken, settleBuilder_building _ (takenBuild b res) rfl rfl] at completes
    refine ⟨_, congrArg Host.Outcome.next completes, rfl, fun ws words => ⟨?_, ?_⟩, fun none => ⟨?_, ?_⟩, counted.latch,
      counted.recs, calm.records, calm.snaps, calm.buffer, calm.list,
      counted.only.pipe, calm.front, calm.ped⟩
    · simp only [takenBuild, words]
    · refine counted.counters.trans ?_
      simp [words]
    · simp only [takenBuild, none]
    · refine counted.counters.trans ?_
      rw [if_pos none]
  · intro s0 b b' f snap r k res s building flight held records full last running result next room
    have counted := entryOccurrences_counted f.event res s
    have completes := completeEntry_exact building flight held result
    have taken : takenBuild b res = b' := next ▸ by unfold takenBuild; cases res.words <;> rfl
    generalize entryOccurrences f.event res s = u at counted completes
    have calm := Calm.only counted.only
    have records : (lastTaken b res u).aq.records = [r] := calm.records.trans records
    have appended := appendFragment_appended (b := b') records (.inl fun h => running (counted.draining h))
    have fit : fits b' (lastTaken b res u) = true := fits_iff.2 (calm.buffer ▸ room)
    have settled := (RestsAfter.lastEntry (calm.list ▸ last)
      (.append (congrArg BuilderState.ready taken) fit appended.rests)).settles (by omega)
    have snaps (j : Fin 16) : (appendFragment b' (lastTaken b res u)).aq.snaps[j] =
        if r.kind = .full j then none else s.aq.snaps[j] := by
      rw [appended.snaps]
      exact congrArg (fun v : Vector (Option Snapshot) 16 => if r.kind = .full j then none else v[j]) calm.snaps
    refine ⟨_, congrArg Host.Outcome.next (completes.trans settled), ?_, appended.records, ?_, fun j other => ?_,
      appended.builder, ?_, ?_⟩
    · have summary : (appendFragment b' (lastTaken b res u)).cond.summary = u.cond.summary :=
        CondTable.summary_congr (congrArg CondTable.recs appended.cond :)
      rw [summary]
      refine appended.buffer.trans ?_
      rw [show (lastTaken b res u).tx.buffer = s.tx.buffer from calm.buffer]
      exact congrArg (fun id => s.tx.buffer ++ fragmentWords b' u.cond.summary id) counted.only.sourceId
    · rw [snaps, if_pos full]
    · rw [snaps, full, if_neg (by simpa [eq_comm] using other)]
    · exact appended.list.trans (by rw [show (lastTaken b res u).list = s.list from calm.list])
    · rw [appended.cond, show (lastTaken b res u).cond = u.cond from rfl, counted.counters]
  · intro s0 b b' f snap res s building flight held last result next long
    have counted := entryOccurrences_counted f.event res s
    have completes := completeEntry_exact building flight held result
    have taken : takenBuild b res = b' := next ▸ by unfold takenBuild; cases res.words <;> rfl
    generalize entryOccurrences f.event res s = u at counted completes
    have calm := Calm.only counted.only
    have fit : fits b' (lastTaken b res u) = false := fits_not.2 (calm.buffer ▸ long)
    have state : (lastTaken b res u).builder.state = .ready b' := congrArg BuilderState.ready taken
    have settled := (RestsAfter.lastEntry (calm.list ▸ last) (.ready state fit)).settles (by omega)
    refine ⟨_, congrArg Host.Outcome.next (completes.trans settled), ?_, calm.buffer, calm.records, calm.snaps,
      calm.list, counted.counters, fun ovf => (counted.latch ovf).1, counted.recs⟩
    exact congrArg (fun x => ({ state := .ready x, inFlight := none } : Builder)) taken

end Sys2Proof.Machine
end


section
/-!
The append of a fragment, and what the builder does after it.
-/

namespace Sys2Proof.Machine

/-! ## What follows an append (R67, R68, R141, R145) -/

section

variable {s t : State} {b : Build} {r : Record} {rest : List Record}

/-- The readout list when the next record starts right after an append. -/
def ReadoutList.next (l : ReadoutList) : ReadoutList :=
  { l with
    active := if l.pending then l.staged else l.active
    generation := if l.pending then l.generation + 1 else l.generation
    pending := false
    swap := l.pending }

/-- The build of the next record right after an append. -/
def nextBuild (q : Record) (l : ReadoutList) : Build :=
  { record := q, generation := if l.pending then l.generation + 1 else l.generation, listNew := l.pending, words := [],
    emitted := 0, suppressed := 0, position := 0, flags := 0 }

theorem ReadoutList.entered_unmarked (l : ReadoutList) : ReadoutList.entered { l with swap := false } = l.next := by
  obtain ⟨staged, active, pending, generation, swap⟩ := l
  cases pending <;> rfl

theorem newBuild_unmarked (q : Record) (l : ReadoutList) : newBuild q { l with swap := false } = nextBuild q l := by
  rw [newBuild_eq, nextBuild, Bool.or_false]

/-- What the append of the fragment of `r` releases and keeps, and the parts that the builder leaves behind. -/
structure AppendLeaves (r : Record) (s t : State) (buffer : List LinkWord) (records : List Record) (list : ReadoutList)
    (builder : Builder) : Prop where
  snaps : ∀ k : Fin 16, t.aq.snaps[k] = if r.kind = .full k then none else s.aq.snaps[k]
  throttleKept : r.kind.slot? = none ∨ s.acq.state = .suspended ∨ s.aq.lo < slotsInUse t → t.aq.throttle = s.aq.throttle
  throttleOff : r.kind.slot? ≠ none → s.acq.state ≠ .suspended → slotsInUse t ≤ s.aq.lo → t.aq.throttle = false
  recs : t.cond.recs = s.cond.recs
  acq : t.acq = s.acq
  buffer : t.tx.buffer = buffer
  records : t.aq.records = records
  list : t.list = list
  builder : t.builder = builder

/-- FRAGS and WORDS after the append of a build. -/
def countFragment (b : Build) (c : Counters) : Counters :=
  { c with frags := c.frags + 1, words := c.words + BitVec.ofNat 32 (5 + b.words.length) }

/-- The ways the builder can settle after the append of `r`: no further record; an entry of the next one handed over; the next
one READY at once, and waiting for room or appended too. -/
structure AppendOutcome (b : Build) (r : Record) (rest : List Record) (s t : State) : Prop where
  last : rest = [] → s.acq.state ≠ .draining →
    AppendLeaves r s t (s.tx.buffer ++ fragmentWords b s.cond.summary s.tx.sourceId) [] { s.list with swap := false }
        { state := .idle, inFlight := none } ∧
      t.cond.counters = countFragment b s.cond.counters
  handed : ∀ q more (k : Fin 16) x xs, rest = q :: more → q.kind = .full k → s.list.next.active = x :: xs →
    AppendLeaves r s t (s.tx.buffer ++ fragmentWords b s.cond.summary s.tx.sourceId) (q :: more) s.list.next
        { state := .building (nextBuild q s.list), inFlight := some { entry := x, event := q.event, slot := k } } ∧
      t.cond.counters = countFragment b s.cond.counters
  waits : ∀ q more, rest = q :: more → q.kind.slot? = none ∨ s.list.next.active = [] →
    4096 < (s.tx.buffer ++ fragmentWords b s.cond.summary s.tx.sourceId).length + 5 →
    AppendLeaves r s t (s.tx.buffer ++ fragmentWords b s.cond.summary s.tx.sourceId) (q :: more) s.list.next
      { state := .ready (nextBuild q s.list), inFlight := none }
  again : ∀ q, rest = [q] → q.kind.slot? = none →
    (s.tx.buffer ++ fragmentWords b s.cond.summary s.tx.sourceId).length + 5 ≤ 4096 → s.acq.state ≠ .draining →
    AppendLeaves r s t
      (s.tx.buffer ++ fragmentWords b s.cond.summary s.tx.sourceId ++
        fragmentWords (nextBuild q s.list) s.cond.summary s.tx.sourceId)
      [] { s.list.next with swap := false } { state := .idle, inFlight := none }

/-- A later state with the same queue, conditions and acquisition, and the parts named, is left as well. -/
theorem Appended.leaves {u : State} {buffer : List LinkWord} {records : List Record} {list : ReadoutList} {builder : Builder}
    (h : Appended b r rest s t) (snaps : u.aq.snaps = t.aq.snaps) (throttle : u.aq.throttle = t.aq.throttle)
    (recs : u.cond.recs = t.cond.recs) (acq : u.acq = t.acq) (buf : u.tx.buffer = buffer) (recds : u.aq.records = records)
    (l : u.list = list) (bld : u.builder = builder) : AppendLeaves r s u buffer records list builder where
  snaps := by rw [snaps]; exact h.snaps
  throttleKept := by rw [throttle, slotsInUse, snaps]; exact h.throttleKept
  throttleOff := by rw [throttle, slotsInUse, snaps]; exact h.throttleOff
  recs := recs.trans (congrArg CondTable.recs h.cond :)
  acq := acq.trans h.acq
  buffer := buf
  records := recds
  list := l
  builder := bld

/-- The append of a NOSNAP record's fragment releases no slot. -/
theorem Appended.snaps_nosnap (h : Appended b r rest s t) (none : r.kind.slot? = none) : t.aq.snaps = s.aq.snaps := by
  refine Vector.ext fun i hi => (h.snaps ⟨i, hi⟩).trans (if_neg fun full => ?_)
  rw [full] at none
  exact absurd none (by simp [RecordKind.slot?])

/-- The next record, where it is READY at once. -/
theorem Appended.next_ready {q : Record} (h : Appended b r rest s t) :
    t.list.entered = s.list.next ∧
      readyAtOnce q t =
        { t with list := s.list.next, builder := { state := .ready (nextBuild q s.list), inFlight := none } } := by
  have list : t.list.entered = s.list.next := by rw [h.list, ReadoutList.entered_unmarked]
  refine ⟨list, ?_⟩
  rw [readyAtOnce, list, show newBuild q t.list = nextBuild q s.list by rw [h.list, newBuild_unmarked]]

theorem AppendLeaves.owing {buffer : List LinkWord} {records : List Record} {list : ReadoutList} {builder : Builder}
    (h : AppendLeaves r s t buffer records list builder) (left : records ≠ [] ∨ buffer ≠ []) : drainTest t = t := by
  refine drainTest_owing (Bool.eq_false_iff.2 fun done => ?_)
  obtain ⟨noRecord, -, noWord⟩ := (drained_iff t).1 done
  exact left.elim (· (h.records.symm.trans noRecord)) (· (h.buffer.symm.trans noWord))

theorem fragmentWords_ne_nil (b : Build) (summary : BitVec 4) (sourceId : Nat) : fragmentWords b summary sourceId ≠ [] := by
  simp [fragmentWords]

/-- What the append leaves owing keeps the part from ending DRAINING. -/
theorem AppendOutcome.drainTest (h : AppendOutcome b r rest s t) : AppendOutcome b r rest s (drainTest t) where
  last := fun e run => by
    have leaves := h.last e run
    rwa [leaves.1.owing (.inr (by simp [fragmentWords_ne_nil]))]
  handed := fun q more k x xs e full entries => by
    have leaves := h.handed q more k x xs e full entries
    rwa [leaves.1.owing (.inl (List.cons_ne_nil _ _))]
  waits := fun q more e none long => by
    have leaves := h.waits q more e none long
    rwa [leaves.owing (.inl (List.cons_ne_nil _ _))]
  again := fun q e none room run => by
    have leaves := h.again q e none room run
    rwa [leaves.owing (.inr (by simp [fragmentWords_ne_nil]))]

theorem append_settles (ready : s.builder.state = .ready b) (records : s.aq.records = r :: rest) (room : fits b s = true) :
    AppendOutcome b r rest s (settleBuilder s) where
  last := fun e run => by
    subst e
    have appended := appendFragment_appended (b := b) records (.inl run)
    rw [(RestsAfter.append ready room appended.rests).settles (by omega)]
    exact ⟨appended.leaves rfl rfl rfl rfl appended.buffer appended.records appended.list appended.builder,
      (congrArg CondTable.counters appended.cond :)⟩
  handed := fun q more k x xs e full entries => by
    subst e
    have appended := appendFragment_appended (b := b) records (.inr (List.cons_ne_nil q more))
    have list : (appendFragment b s).list.entered = s.list.next := by rw [appended.list, ReadoutList.entered_unmarked]
    have started := startRecord_handed (s := appendFragment b s) full (x := x) (xs := xs) (by rw [list, entries])
    rw [show newBuild q (appendFragment b s).list = nextBuild q s.list by rw [appended.list, newBuild_unmarked], list]
      at started
    rw [(RestsAfter.append ready room (.start (congrArg Builder.state appended.builder) appended.records
      (.building (b := nextBuild q s.list) (by rw [started]) (by rw [started]; rfl)))).settles (by omega), started]
    generalize appendFragment b s = u at appended
    exact ⟨appended.leaves rfl rfl rfl rfl appended.buffer appended.records rfl rfl,
      (congrArg CondTable.counters appended.cond :)⟩
  waits := fun q more e none long => by
    subst e
    have appended := appendFragment_appended (b := b) records (.inr (List.cons_ne_nil q more))
    obtain ⟨list, atOnce⟩ := appended.next_ready (q := q)
    rw [(RestsAfter.append ready room (.start_ready (congrArg Builder.state appended.builder) appended.records
      (list ▸ none) (.ready (b := nextBuild q s.list) (by rw [atOnce]) (fits_not.2 (by
        rw [atOnce]; exact appended.buffer ▸ long))))).settles (by omega), atOnce]
    generalize appendFragment b s = u at appended
    exact appended.leaves rfl rfl rfl rfl appended.buffer appended.records rfl rfl
  again := fun q e none long run => by
    subst e
    have appended := appendFragment_appended (b := b) records (.inr (List.cons_ne_nil q []))
    obtain ⟨list, atOnce⟩ := appended.next_ready (q := q)
    have room2 : fits (nextBuild q s.list) (readyAtOnce q (appendFragment b s)) = true :=
      fits_iff.2 (by rw [atOnce]; exact appended.buffer ▸ long)
    have appended2 : Appended (nextBuild q s.list) q [] (readyAtOnce q (appendFragment b s)) _ :=
      appendFragment_appended appended.records (.inl (appended.acq ▸ run))
    rw [(RestsAfter.append ready room (.start_ready (congrArg Builder.state appended.builder) appended.records
      (.inl none) (.append (by rw [atOnce]) room2 appended2.rests))).settles (by rw [records]; simp)]
    have throttle := appended2.throttleKept (.inl none)
    refine appended.leaves (appended2.snaps_nosnap none) throttle (congrArg CondTable.recs appended2.cond :) appended2.acq
      (appended2.buffer.trans ?_) appended2.records (appended2.list.trans ?_) appended2.builder
    · have summary : (appendFragment b s).cond.summary = s.cond.summary :=
        CondTable.summary_congr (congrArg CondTable.recs appended.cond :)
      exact congr (congrArg HAppend.hAppend appended.buffer)
        (congr (congrArg (fragmentWords (nextBuild q s.list)) summary) appended.sourceId)
    · rw [atOnce]

/-! ## The two events that append (R144, R155) -/

theorem fragmentAppend_settles (ready : s.builder.state = .ready b) (room : fits b s = true) :
    fragmentAppend s = settleBuilder s := by
  simp only [fragmentAppend, ready]
  exact if_pos room

theorem blockCompletion_settles {m : Nat} (begun : s.tx.begun = some m)
    (other : ∀ tag : Byte, s.ctl.executing ≠ .rset tag false) :
    completeRset (completeBlock s) = drainTest (settleBuilder (releaseBlock m s)) := by
  rw [completeBlock_eq begun]
  refine completeRset_notDue (rsetDue_none fun tag => ?_)
  have kept := (settleBuilder_kept (releaseBlock m s)).trans (drainTest_kept _)
  rw [kept.ctl]
  exact other tag

end

/-! ## The settling theorem -/

/-- The record flags of the header, bit by bit (R148, R203). -/
theorem recordFlags_bits (b : Build) :
    b.recordFlags =
      BitVec.ofBool b.record.unaligned ++ BitVec.ofBool b.record.rule ++ BitVec.ofBool b.record.pulse.isSome ++
        BitVec.ofBool (b.record.kind.slot?.isNone) ++ BitVec.ofBool (decide (0 < b.record.gap)) ++ BitVec.ofBool b.listNew ++
        BitVec.ofBool (b.flags.getLsbD 15 || b.flags.getLsbD 14 || b.flags.getLsbD 13 || b.flags.getLsbD 11 ||
          b.flags.getLsbD 9 || b.flags.getLsbD 8) ++
        BitVec.ofBool (b.flags.getLsbD 6) := by
  have nosnap : b.record.kind.isNosnap = b.record.kind.slot?.isNone := by cases b.record.kind <;> rfl
  rw [Build.recordFlags, nosnap, chFlag, trimStepAny]

/-- Settles O29: the append of a READY fragment, by itself or at a block completion that makes room, and the way the builder
settles after it. -/
theorem fragmentAppendsWhole : Obligations.FragmentAppendsWhole := by
  refine ⟨?_, ?_, ?_, fun b => ⟨recordFlags_bits b, ?_⟩⟩
  · intro s0 b r k s ready records full room running
    have fit : fits b s = true := fits_iff.2 room
    have appended := appendFragment_appended (b := b) records (.inl running)
    have settled := (fragmentAppend_settles ready fit).trans ((RestsAfter.append ready fit appended.rests).settles (by omega))
    have slot : r.kind.slot? ≠ none := by rw [full]; exact Option.some_ne_none k
    have words := appended.buffer
    rw [fragmentWords, ← List.append_assoc, ← List.append_assoc] at words
    refine ⟨_, congrArg Host.Outcome.next settled, words, appended.cond, appended.records, ?_, fun j other => ?_,
      appended.throttleOff slot, fun h => appended.throttleKept (.inr h), appended.list, appended.builder, appended.acq,
      appended.pipe⟩
    · rw [appended.snaps, if_pos full]
    · rw [appended.snaps, full, if_neg (by simpa [eq_comm] using other)]
  · intro s0 b r k m s other ready records full begun room running
    have fit : fits b (releaseBlock m s) = true := fits_iff.2 room
    have appended : Appended b r [] (releaseBlock m s) _ := appendFragment_appended (b := b) records (.inl running)
    have settled : completeRset (completeBlock s) = appendFragment b (releaseBlock m s) := by
      rw [blockCompletion_settles begun other,
        (RestsAfter.append (s := releaseBlock m s) ready fit appended.rests).settles (by omega)]
      exact drainTest_other (appended.acq ▸ running)
    refine ⟨_, congrArg Host.Outcome.next settled, appended.buffer, appended.begun, appended.records, ?_, appended.builder,
      appended.list, (congrArg CondTable.counters appended.cond :), appended.ctl⟩
    rw [appended.snaps, if_pos full]
  · intro s0 c base b r rest s due ready records room buf entries released
    have outcome : ∃ v t, exec c s0 = .next t ∧ AppendOutcome b r rest v t ∧ v.tx.buffer = base ∧ v.aq = s.aq ∧
        v.acq = s.acq ∧ v.list = s.list ∧ v.cond = s.cond ∧ v.tx.sourceId = s.tx.sourceId := by
      rcases due with ⟨rfl, rfl⟩ | ⟨rfl, other, m, begun, rfl⟩
      · have fit : fits b s = true := fits_iff.2 room
        exact ⟨s, _, congrArg Host.Outcome.next (fragmentAppend_settles ready fit), append_settles ready records fit,
          rfl, rfl, rfl, rfl, rfl, rfl⟩
      · have fit : fits b (releaseBlock m s) = true := fits_iff.2 room
        exact ⟨releaseBlock m s, _, congrArg Host.Outcome.next (blockCompletion_settles begun other),
          (append_settles (s := releaseBlock m s) ready records fit).drainTest, rfl, rfl, rfl, rfl, rfl, rfl⟩
    obtain ⟨v, t, next, outcome, base', aq, acq, list, cond, id⟩ := outcome
    have words : v.tx.buffer ++ fragmentWords b v.cond.summary v.tx.sourceId = buf := by rw [base', cond, id]
    have kept {buffer : List LinkWord} {recs : List Record} {l : ReadoutList} {bld : Builder}
        (h : AppendLeaves r v t buffer recs l bld) : released t :=
      ⟨aq ▸ h.snaps, aq ▸ acq ▸ h.throttleKept, aq ▸ acq ▸ h.throttleOff, h.recs.trans (congrArg CondTable.recs cond),
        h.acq.trans acq⟩
    have counted {d : Counters} (h : d = countFragment b v.cond.counters) : d = countFragment b s.cond.counters := cond ▸ h
    refine ⟨t, next, fun last run => ?_, fun q more further => ⟨?_, ?_, ?_⟩⟩
    · obtain ⟨left, counters⟩ := outcome.last last (acq ▸ run)
      exact ⟨kept left, left.buffer.trans words, left.records, left.builder, left.list.trans (by rw [list]),
        counted counters⟩
    · intro k x xs full handed
      obtain ⟨left, counters⟩ := outcome.handed q more k x xs further full (by rw [list]; exact handed)
      exact ⟨kept left, left.buffer.trans words, left.records, left.list.trans (congrArg ReadoutList.next list),
        left.builder.trans (by rw [list]; rfl), counted counters⟩
    · intro none long
      have left := outcome.waits q more further (by rw [list]; exact none) (by rw [words]; exact long)
      exact ⟨kept left, left.buffer.trans words, left.records, left.list.trans (congrArg ReadoutList.next list),
        left.builder.trans (by rw [list]; rfl)⟩
    · intro none fit single run
      have left := outcome.again q (further.trans (by rw [single])) none (by rw [words]; exact fit) (acq ▸ run)
      refine ⟨kept left, left.buffer.trans ?_, left.records, left.list.trans (by rw [list]; rfl), left.builder⟩
      rw [words, list, cond, id]
      rfl
  · cases b.record.kind with
    | full k => rfl
    | nosnap reason => cases reason <;> rfl

end Sys2Proof.Machine
end


section
/-!
An accept, piece by piece: the rule check, what becomes of it, the occurrences of a record, and the record's place in the
queue.
-/

namespace Sys2Proof.Machine

/-! ## Occurrences that leave class 3 (R184) -/

section

variable {s t u : State} {e : EventNum} {v : Bool} {kind : RecordKind} {r : Record}

/-- A condition outside class 3 neither raises nor clears it. -/
theorem occur_outside_class3 {c : Cond} (ev : Option EventNum) (h : s.cond.recs[c.num].cls ≠ .class3) :
    occur c ev s = s.mapCond (CondTable.occur c ev) := by
  refine changeConds_same _ s (Bool.eq_iff_iff.2 ((raised_iff _ _).trans (Iff.trans ?_ (raised_iff _ _).symm)))
  refine exists_congr fun i => ?_
  show (s.cond.occur c ev).recs[i].latch = true ∧ (s.cond.occur c ev).recs[i].cls = _ ↔ _
  by_cases same : i = c.num
  · subst same
    rw [CondTable.occur_rec]
    exact ⟨fun both => absurd both.2 h, fun both => absurd both.2 h⟩
  · rw [CondTable.occur_rec_other same]

/-! ## The rule check (R56) -/

/-- The Condition Table after the count of an accept and its rule check. -/
def checkedTable (e : EventNum) (v : Bool) (d : CondTable) : CondTable :=
  let seen : CondTable := { d with counters := { d.counters with accSeen := d.counters.accSeen + 1 } }
  if v then
    { seen.occur .ruleViol (some e) with
      counters := { d.counters with accSeen := d.counters.accSeen + 1, ruleV := d.counters.ruleV + 1 } }
  else seen

theorem checkedTable_counters (e : EventNum) (v : Bool) (d : CondTable) :
    (checkedTable e v d).counters =
      { d.counters with
        accSeen := d.counters.accSeen + 1
        ruleV := d.counters.ruleV + if v then 1 else 0 } := by
  cases v
  · simp [checkedTable]
  · rfl

theorem checkedTable_rec_other (e : EventNum) (v : Bool) (d : CondTable) {i : Fin 25} (h : i ≠ 6) :
    (checkedTable e v d).recs[i] = d.recs[i] := by
  cases v
  · rfl
  · exact CondTable.occur_rec_other (c := .ruleViol) h

/-- The state after the count of an accept and its rule check. -/
def checkedState (e : EventNum) (v : Bool) (s : State) : State :=
  { s with
    aq := { s.aq with history := ruleHistory s.aq s.timing.serial }
    cond := checkedTable e v s.cond }

/-- An accept counted and checked against the trigger rule, where RULE_VIOL does not raise class 3. -/
theorem ruleCheck_exact (hv : v = ruleViolated s.aq s.timing.serial)
    (outside : v = true → s.cond.recs[(6 : Fin 25)].cls ≠ .class3) :
    ruleCheck e (countSeen s) = checkedState e v s := by
  have check : ruleViolated (countSeen s).aq (countSeen s).timing.serial = v := hv.symm
  unfold ruleCheck checkedState checkedTable
  rw [check]
  cases v
  · rfl
  · rw [if_pos rfl, occur_outside_class3 (s := countSeen s) (c := .ruleViol) _ (outside rfl)]
    rfl

/-! ## Slots in use (R69) -/

/-- The snapshot slots that are held. -/
def usedSlots (v : Vector (Option Snapshot) 16) : Nat := (v.toList.filter Option.isSome).length

theorem usedSlots_put {q : Vector (Option Snapshot) 16} {k : Fin 16} (snap : Snapshot) (free : q[k] = none) :
    usedSlots (put q k (some snap)) = usedSlots q + 1 := by
  have free : q.toList[k.val]'(by simp) = none := by simpa using free
  rw [usedSlots, usedSlots, put, Vector.toList_set, ← List.countP_eq_length_filter, ← List.countP_eq_length_filter,
    List.countP_set (h := by simp), free]
  simp

theorem lowestFree_first {k : Fin 16} (free : s.aq.snaps[k] = none) (lower : ∀ j : Fin 16, j < k → s.aq.snaps[j] ≠ none) :
    lowestFree s = some k := by
  refine List.find?_eq_some_iff_getElem.2 ⟨by simp only [free, Option.isNone_none], k.val, by simp, by simp, fun j low => ?_⟩
  have held := lower ⟨j, by omega⟩ low
  simpa [Option.isSome_iff_ne_none] using held

theorem lowestFree_none (held : ∀ k : Fin 16, s.aq.snaps[k] ≠ none) : lowestFree s = none :=
  List.find?_eq_none.2 fun k _ => by simpa using held k

/-! ## The record in the queue (R61 to R64, R69, R73) -/

/-- The queue with a record appended, but for the throttle. -/
def appendedQueue (r : Record) (snap : Snapshot) (q : AcceptQueue) : AcceptQueue :=
  { q with
    records := q.records ++ [r]
    gap := 0
    recordMark := max q.recordMark (q.records.length + 1)
    slotMark := if r.kind.slot?.isSome then max q.slotMark (usedSlots (fillSlot r.kind snap q.snaps)) else q.slotMark
    snaps := fillSlot r.kind snap q.snaps }

theorem appendRecord_exact (r : Record) (snap : Snapshot) (s : State) :
    ∃ wf, appendRecord r snap s =
      setThrottle
        (s.aq.throttle || (r.kind.slot?.isSome && decide (s.aq.hi ≤ usedSlots (fillSlot r.kind snap s.aq.snaps)))) wf
        (s.mapAq (appendedQueue r snap)) := by
  cases kind : r.kind with
  | nosnap reason =>
    have same : appendRecord r snap s = s.mapAq (appendedQueue r snap) := by
      simp [appendRecord, appendedQueue, kind, RecordKind.slot?, fillSlot, State.mapAq]
    rw [same]
    exact ⟨_, by rw [RecordKind.slot?]; exact (setThrottle_same (by simp [State.mapAq, appendedQueue])).symm⟩
  | full k =>
    have filled : appendRecord r snap s = (if s.aq.hi ≤ usedSlots (fillSlot (.full k) snap s.aq.snaps) then
        throttleOn (s.mapAq (appendedQueue r snap)) else s.mapAq (appendedQueue r snap)) := by
      simp only [appendRecord, appendedQueue, kind, RecordKind.slot?, fillSlot, State.mapAq, usedSlots, slotsInUse]
      rfl
    rw [filled, RecordKind.slot?, Option.isSome_some, Bool.true_and]
    by_cases high : s.aq.hi ≤ usedSlots (fillSlot (.full k) snap s.aq.snaps)
    · rw [if_pos high, throttleOn_exact, decide_eq_true high, Bool.or_true]
      exact ⟨_, rfl⟩
    · rw [if_neg high, decide_eq_false high, Bool.or_false]
      exact ⟨_, (setThrottle_same rfl).symm⟩

/-! ## What a record made leaves (R60, R74) -/

/-- The counters and the condition of a record made, and what they leave. -/
structure RecordCounted (e : EventNum) (kind : RecordKind) (s u : State) : Prop where
  only : OnlyConditions s u
  draining : u.acq.state = .draining → s.acq.state = .draining
  counters : u.cond.counters =
    { s.cond.counters with
      recMade := s.cond.counters.recMade + 1
      noSnaps := s.cond.counters.noSnaps + if kind.slot? = none then 1 else 0 }
  noSlot : kind = .nosnap .noslot → u.cond.recs[(5 : Fin 25)] = s.cond.recs[(5 : Fin 25)].occur (some e)
  others : kind ≠ .nosnap .noslot → u.cond.recs = s.cond.recs
  calm : kind.slot? ≠ none → u.acq = s.acq ∧ u.aq = s.aq

theorem recordOccurrences_counted (e : EventNum) (kind : RecordKind) (s : State) :
    RecordCounted e kind s (recordOccurrences e kind s) where
  only := recordOccurrences_only e kind s
  draining := (recordOccurrences_leavesWork e kind s).2.2.2.2
  counters := by
    cases kind with
    | full k => simp [recordOccurrences, RecordKind.slot?]
    | nosnap reason => simp [recordOccurrences, RecordKind.slot?, occurIf_counters]
  noSlot := fun h => by
    subst h
    exact occurIf_rec true .noSlot (some e) _
  others := fun h => by
    cases kind with
    | full k => rfl
    | nosnap reason =>
      have other : reason ≠ .noslot := fun same => h (congrArg RecordKind.nosnap same)
      rw [recordOccurrences, decide_eq_false other]
      rfl
  calm := fun slot => by
    cases kind with
    | full k => exact ⟨rfl, rfl⟩
    | nosnap reason => exact absurd rfl slot

/-- The state in which the builder goes on after a record has been made of an accept. -/
def recordMade (e : EventNum) (v : Bool) (kind : RecordKind) (s : State) : State :=
  appendRecord (newRecord e v kind s) (capture s) (retirePulses (acceptRef s) (windowSpan s.acq) (recordOccurrences e kind s))

/-- What a record made of an accept has changed when the builder goes on. -/
structure Recorded (e : EventNum) (v : Bool) (kind : RecordKind) (s w : State) : Prop where
  records : w.aq.records = s.aq.records ++ [newRecord e v kind s]
  gap : w.aq.gap = 0
  snaps : w.aq.snaps = fillSlot kind (capture s) s.aq.snaps
  inj : w.inj =
    { s.inj with pending := s.inj.pending.filter fun p => !inSpan (acceptRef s) (windowSpan s.acq) p }
  counters : w.cond.counters =
    { s.cond.counters with
      accSeen := s.cond.counters.accSeen + 1
      recMade := s.cond.counters.recMade + 1
      noSnaps := s.cond.counters.noSnaps + if kind.slot? = none then 1 else 0
      ruleV := s.cond.counters.ruleV + if v then 1 else 0 }
  noSlot : kind = .nosnap .noslot → w.cond.recs[(5 : Fin 25)] = s.cond.recs[(5 : Fin 25)].occur (some e)
  others : kind ≠ .nosnap .noslot → w.cond.recs = (checkedTable e v s.cond).recs
  draining : w.acq.state = .draining → s.acq.state = .draining
  acq : kind.slot? ≠ none → w.acq = s.acq
  throttle : kind.slot? ≠ none →
    w.aq.throttle = (s.aq.throttle || decide (s.aq.hi ≤ usedSlots (fillSlot kind (capture s) s.aq.snaps)))
  pipe : w.pipe = s.pipe
  list : w.list = s.list
  builder : w.builder = s.builder
  buffer : w.tx.buffer = s.tx.buffer
  sourceId : w.tx.sourceId = s.tx.sourceId

theorem decideAccept_record (room : s.aq.records.length < 32) (becomes : recordKind v s = some kind) :
    decideAccept e v s = settleBuilder (recordMade e v kind s) := by
  rw [decideAccept, if_neg (Nat.not_le.2 room), becomes]
  rfl

theorem newRecord_checked : newRecord e v kind (checkedState e v s) = newRecord e v kind s := rfl

theorem capture_checked : capture (checkedState e v s) = capture s := rfl

theorem appendRecord_recorded {q : State} {snap : Snapshot} (kinds : r.kind = kind) :
    (appendRecord r snap q).aq.records = q.aq.records ++ [r] ∧ (appendRecord r snap q).aq.gap = 0 ∧
      (appendRecord r snap q).aq.snaps = fillSlot kind snap q.aq.snaps ∧
      (kind.slot? ≠ none → (appendRecord r snap q).aq.throttle =
        (q.aq.throttle || decide (q.aq.hi ≤ usedSlots (fillSlot kind snap q.aq.snaps)))) ∧
      OnlyConditions (q.mapAq (appendedQueue r snap)) (appendRecord r snap q) := by
  subst kinds
  obtain ⟨wf, appended⟩ := appendRecord_exact r snap q
  rw [appended]
  refine ⟨rfl, rfl, rfl, fun slot => ?_, ⟨_, _, _, _, rfl⟩⟩
  show (q.aq.throttle || (r.kind.slot?.isSome && _)) = _
  rw [Option.isSome_iff_ne_none.2 slot, Bool.true_and]

theorem recordMade_recorded (s : State) : Recorded e v kind s (recordMade e v kind (checkedState e v s)) := by
  have counted := recordOccurrences_counted e kind (checkedState e v s)
  have calm := Calm.only counted.only
  unfold recordMade
  rw [newRecord_checked, capture_checked]
  generalize recordOccurrences e kind (checkedState e v s) = u at counted calm
  obtain ⟨records, gap, snaps, throttle, only⟩ :=
    appendRecord_recorded (q := retirePulses (acceptRef (checkedState e v s)) (windowSpan (checkedState e v s).acq) u)
      (r := newRecord e v kind s) (snap := capture s) (kind := kind) rfl
  have cond := appendRecord_cond (newRecord e v kind s) (capture s)
    (retirePulses (acceptRef (checkedState e v s)) (windowSpan (checkedState e v s).acq) u)
  have acq := (appendRecord_frame (newRecord e v kind s) (capture s)
    (retirePulses (acceptRef (checkedState e v s)) (windowSpan (checkedState e v s).acq) u)).2
  generalize appendRecord _ _ _ = w at records gap snaps throttle only cond acq
  have left := Calm.only only
  exact
    { records := records.trans (congrArg (· ++ _) calm.records)
      gap := gap
      snaps := snaps.trans (congrArg (fillSlot kind (capture s)) calm.snaps)
      inj := only.inj.trans (congrArg (fun i : Injector =>
        { i with pending := i.pending.filter fun p => !inSpan (acceptRef s) (windowSpan s.acq) p }) counted.only.inj)
      counters := by
        rw [cond]
        refine counted.counters.trans ?_
        rw [show (checkedState e v s).cond.counters = _ from checkedTable_counters e v s.cond]
      noSlot := fun h => by
        rw [cond]
        refine (counted.noSlot h).trans ?_
        exact congrArg (CondRec.occur · _) (checkedTable_rec_other e v s.cond (by decide))
      others := fun h => by
        rw [cond]
        exact counted.others h
      draining := fun h => counted.draining (acq ▸ h)
      acq := fun slot => acq.trans (counted.calm slot).1
      throttle := fun slot => by
        refine (throttle slot).trans ?_
        rw [show (retirePulses _ _ u).aq = (checkedState e v s).aq from (counted.calm slot).2]
        rfl
      pipe := only.pipe.trans counted.only.pipe
      list := only.list.trans counted.only.list
      builder := left.builder.trans calm.builder
      buffer := left.buffer.trans calm.buffer
      sourceId := only.sourceId.trans counted.only.sourceId }

/-- An accept in PRIMING, SUSPENDED or RUNNING with room in the list becomes a record, and the builder goes on from it. -/
theorem acceptArrival_recorded (hv : v = ruleViolated s.aq s.timing.serial)
    (outside : v = true → s.cond.recs[(6 : Fin 25)].cls ≠ .class3) (room : s.aq.records.length < 32)
    (becomes : recordKind v s = some kind) :
    ∃ w, acceptArrival e s = settleBuilder w ∧ Recorded e v kind s w := by
  have accept : acceptArrival e s = decideAccept e v (ruleCheck e (countSeen s)) := by rw [hv]; rfl
  rw [accept, ruleCheck_exact hv outside, decideAccept_record (s := checkedState e v s) room becomes]
  exact ⟨_, rfl, recordMade_recorded s⟩

end

end Sys2Proof.Machine
end


section
/-!
The accept of a frame that brings nothing else about: the Clock Synthesiser and the Slow Integrator, which the same crossing
arrival moves, stand aside from an accept.
-/

namespace Sys2Proof.Machine

/-! ## An accept does not look at the clock or the integrator -/

section

variable (c : Clock) (i : Integrator) (s : State)

/-- The state with another clock and another integrator. -/
def aside : State := { s with clk := c, integ := i }

theorem throttleOn_aside : throttleOn (aside c i s) = aside c i (throttleOn s) := by
  rw [throttleOn, throttleOn, apply_ite (aside c i)]
  rfl

theorem throttleOff_aside : throttleOff (aside c i s) = aside c i (throttleOff s) := by
  rw [throttleOff, throttleOff, apply_ite (aside c i)]
  rfl

theorem throttleRelax_aside : throttleRelax (aside c i s) = aside c i (throttleRelax s) := by
  rw [throttleRelax, throttleRelax, apply_ite (aside c i), throttleOff_aside]
  rfl

theorem onClass3Raised_aside : onClass3Raised (aside c i s) = aside c i (onClass3Raised s) := by
  have suspends : enterSuspended (aside c i s) = aside c i (enterSuspended s)  :=
    throttleOn_aside c i (s.mapAcq fun a => { a with state := .suspended })
  unfold onClass3Raised
  rw [show (aside c i s).acq = s.acq from rfl]
  cases s.acq.state
  case priming => exact suspends
  case running => exact suspends
  all_goals rfl

theorem onClass3Cleared_aside : onClass3Cleared (aside c i s) = aside c i (onClass3Cleared s) := by
  unfold onClass3Cleared
  rw [show (aside c i s).acq = s.acq from rfl]
  cases s.acq.state
  case suspended =>
    exact throttleRelax_aside c i (s.mapAcq fun a => { a with state := if a.startL ≤ s.pipe.fill then .running else .priming })
  all_goals rfl

theorem changeConds_aside (f : CondTable → CondTable) : changeConds f (aside c i s) = aside c i (changeConds f s) := by
  have before : class3 (aside c i s) = class3 s := rfl
  have after : class3 ((aside c i s).mapCond f) = class3 (s.mapCond f) := rfl
  by_cases same : class3 (s.mapCond f) = class3 s
  · rw [changeConds_same f s same, changeConds_same f (aside c i s) same]
    rfl
  · cases was : class3 s with
    | false =>
      have raised : class3 (s.mapCond f) = true := by simpa [was] using same
      rw [changeConds_raises f s was raised, changeConds_raises f (aside c i s) was raised]
      exact onClass3Raised_aside c i (s.mapCond f)
    | true =>
      have cleared : class3 (s.mapCond f) = false := by simpa [was] using same
      rw [changeConds_clears f s was cleared, changeConds_clears f (aside c i s) was cleared]
      exact onClass3Cleared_aside c i (s.mapCond f)

theorem occur_aside (x : Cond) (ev : Option EventNum) : occur x ev (aside c i s) = aside c i (occur x ev s) :=
  changeConds_aside c i s _

theorem occurIf_aside (b : Bool) (x : Cond) (ev : Option EventNum) :
    occurIf b x ev (aside c i s) = aside c i (occurIf b x ev s) := by
  cases b
  · rfl
  · exact occur_aside c i s x ev

/-! ## The builder -/

theorem enterStandby_aside : enterStandby (aside c i s) = aside c i (enterStandby s) := by
  rw [enterStandby_exact, enterStandby_exact]
  rfl

theorem drainTest_aside : drainTest (aside c i s) = aside c i (drainTest s) := by
  rw [drainTest, drainTest, apply_ite (aside c i), enterStandby_aside]
  rfl

theorem removeHead_aside : removeHead (aside c i s) = aside c i (removeHead s) := by
  unfold removeHead
  rw [show (aside c i s).aq = s.aq from rfl]
  cases s.aq.records with
  | nil => rfl
  | cons r rest =>
    dsimp only
    cases r.kind with
    | nosnap reason => rfl
    | full k => exact throttleRelax_aside c i (s.mapAq fun q => { q with records := rest, snaps := put q.snaps k none })

theorem appendFragment_aside (b : Build) : appendFragment b (aside c i s) = aside c i (appendFragment b s) := by
  rw [appendFragment_stages, appendFragment_stages, ← drainTest_aside]
  refine congrArg drainTest ?_
  show closeBuild (removeHead (aside c i (appendWords b s))) = _
  rw [removeHead_aside]
  rfl

theorem startRecord_aside (r : Record) : startRecord r (aside c i s) = aside c i (startRecord r s) := by
  rw [startRecord_exact, startRecord_exact]
  rfl

theorem runBuilder_aside (k : Nat) (s : State) : runBuilder k (aside c i s) = aside c i (runBuilder k s) := by
  induction k generalizing s with
  | zero => rfl
  | succ k ih =>
    unfold runBuilder
    rw [show (aside c i s).builder = s.builder from rfl, show (aside c i s).aq = s.aq from rfl]
    cases s.builder.state with
    | idle =>
      cases s.aq.records with
      | nil => rfl
      | cons r rest =>
        dsimp only
        rw [startRecord_aside]
        exact ih _
    | building b =>
      dsimp only
      rw [apply_ite (aside c i), ← ih]
      rfl
    | ready b =>
      dsimp only
      rw [apply_ite (aside c i), ← ih, ← appendFragment_aside]
      rfl

theorem settleBuilder_aside : settleBuilder (aside c i s) = aside c i (settleBuilder s) := runBuilder_aside c i _ s

/-! ## The accept -/

theorem ruleCheck_aside (e : EventNum) : ruleCheck e (aside c i s) = aside c i (ruleCheck e s) := by
  have violated : ruleViolated (aside c i s).aq (aside c i s).timing.serial = ruleViolated s.aq s.timing.serial := rfl
  unfold ruleCheck
  rw [violated]
  cases ruleViolated s.aq s.timing.serial
  · rfl
  · rw [if_pos rfl, if_pos rfl, occur_aside]
    rfl

theorem recordOccurrences_aside (e : EventNum) (kind : RecordKind) :
    recordOccurrences e kind (aside c i s) = aside c i (recordOccurrences e kind s) := by
  cases kind with
  | full k => rfl
  | nosnap reason => exact occurIf_aside c i (tally (fun c => { c with noSnaps := c.noSnaps + 1 }) (countMade s)) _ _ _

theorem appendRecord_aside (r : Record) (snap : Snapshot) :
    appendRecord r snap (aside c i s) = aside c i (appendRecord r snap s) := by
  unfold appendRecord
  cases r.kind with
  | nosnap reason => rfl
  | full k =>
    dsimp only
    rw [apply_ite (aside c i), ← throttleOn_aside]
    rfl

theorem decideAccept_aside (e : EventNum) (v : Bool) : decideAccept e v (aside c i s) = aside c i (decideAccept e v s) := by
  have made (kind : RecordKind) : makeRecord e v kind (aside c i s) = aside c i (makeRecord e v kind s) := by
    unfold makeRecord
    rw [recordOccurrences_aside, ← settleBuilder_aside, ← appendRecord_aside]
    rfl
  have kind : recordKind v (aside c i s) = recordKind v s := rfl
  unfold decideAccept
  rw [apply_ite (aside c i), ← occur_aside, kind]
  cases recordKind v s with
  | none => rfl
  | some kind =>
    dsimp only
    rw [made]
    rfl

theorem acceptArrival_aside (e : EventNum) : acceptArrival e (aside c i s) = aside c i (acceptArrival e s) := by
  have accept (t : State) :
      acceptArrival e t = decideAccept e (ruleViolated t.aq t.timing.serial) (ruleCheck e (countSeen t)) := rfl
  rw [accept, accept, ← decideAccept_aside, ← ruleCheck_aside]
  rfl

end

end Sys2Proof.Machine
end


section
/-!
A timing-link frame that brings an accept about and nothing else: which of its things move something, in the order of R26.
-/

namespace Sys2Proof.Machine

section

variable {f : Byte} {s : State}

/-! ## The Timing Receiver (R22, R27, R32) -/

/-- A frame that passes in LOCKED and carries no TURNMARK moves the Timing Receiver's block alone. -/
theorem receiverFrame_unmarked (locked : s.timing.link = .locked) (good : frameGood f = true)
    (unmarked : frameTurnmark f = false) : receiverFrame f s = { s with timing := s.timing.received f } := by
  have alone : ∃ t, receiverFrame f s = { s with timing := t } := by
    have present : clockAppears s = s := by
      rw [clockAppears, clockPresent, decide_eq_true (by simp [locked]), if_pos rfl]
    have plain : (flagsOf f).turnmark = false := unmarked
    have taken : takeFrame true s =
        (s.mapTiming fun t => { t with lastTaken := t.candidate }).mapTiming fun t => { t with failCount := 0 } := by
      simp only [takeFrame, locked, if_true]
    rw [receiverFrame_stages, fastCommands_act locked good, good, present, taken, commandFrame, plain]
    exact ⟨_, rfl⟩
  obtain ⟨t, alone⟩ := alone
  rw [alone, ← receiverFrame_timing, alone]

/-! ## No race (assumption log 4) -/

theorem frameConds_none {fc : FastCommands} (unexpired : s.inj.pending.any (expired (lookBack s.acq) s.timing.serial) = false)
    (idle : s.inj.state.inTrain = false) (unasked : fc.pulsereq = false)
    (gate : ∀ (c : Chan) (n : Nat), s.integ.scan = .gate c n → 2 ≤ n)
    (stall : s.tx.stallMark = true ∨ s.tx.stallTimer + 1 < s.tx.stallLimit * 256) : frameConds fc s = [] := by
  have race : listRace fc s = false := by rw [listRace, idle, unasked, Bool.or_false, Bool.and_false]
  have stalls : (!s.tx.stallMark && decide (stallTop s.tx ≤ s.tx.stallTimer + 1)) = false := by
    rcases stall with mark | low
    · rw [mark]; rfl
    · rw [stallTop, decide_eq_false (Nat.not_le.2 low), Bool.and_false]
  unfold frameConds
  rw [unexpired, race, unasked, stalls]
  cases scan : s.integ.scan with
  | gate c n =>
    have later : ¬n ≤ 1 := Nat.not_le.2 (gate c n scan)
    simp [later]
  | _ => rfl

theorem actOrder_none {fc : FastCommands} (conds : frameConds fc s = []) (race : listRace fc s = false) :
    actOrder fc s = frameActs := by
  rw [actOrder, classRace, conds, race]
  simp

/-! ## The things that move nothing or only a timer -/

theorem expirePulses_none (unexpired : ∀ p ∈ s.inj.pending, expired (lookBack s.acq) s.timing.serial p = false) :
    expirePulses s = s := by
  have gone : s.inj.pending.filter (expired (lookBack s.acq) s.timing.serial) = [] :=
    List.filter_eq_nil_iff.2 fun p hp => by simp [unexpired p hp]
  have kept : (s.inj.pending.filter fun p => !expired (lookBack s.acq) s.timing.serial p) = s.inj.pending :=
    List.filter_eq_self.2 fun p hp => by simp [unexpired p hp]
  unfold expirePulses
  rw [gone, State.mapInj, kept]
  rfl

theorem fireDue_none (idle : s.inj.state = .disarmed ∨ s.inj.state = .armed) : fireDue s = s := by
  unfold fireDue
  rcases idle with h | h <;> rw [h]

theorem scanTick_counting (gate : ∀ (c : Chan) (n : Nat), s.integ.scan = .gate c n → 2 ≤ n) :
    ∃ i, scanTick s = { s with integ := i } := by
  unfold scanTick
  cases scan : s.integ.scan with
  | idle => exact ⟨s.integ, rfl⟩
  | settle c n => exact ⟨_, (apply_ite (fun i => { s with integ := i }) _ _ _).symm⟩
  | gate c n => exact ⟨_, if_neg (Nat.not_le.2 (gate c n scan))⟩

theorem stallTick_timer (finds : Bool) (stall : s.tx.stallMark = true ∨ s.tx.stallTimer + 1 < s.tx.stallLimit * 256) :
    ∃ timer, stallTick finds s = { s with tx := { s.tx with stallTimer := timer } } := by
  let timer := if finds then bump (stallTop s.tx) s.tx.stallTimer else s.tx.stallTimer
  have quiet : (finds && decide (timer = stallTop s.tx) && !s.tx.stallMark) = false := by
    rcases stall with mark | low
    · rw [mark, Bool.not_true, Bool.and_false]
    · have below : timer ≠ stallTop s.tx := by
        show (if finds then bump (s.tx.stallLimit * 256) s.tx.stallTimer else s.tx.stallTimer) ≠ s.tx.stallLimit * 256
        unfold bump
        split
        · split <;> omega
        · omega
      rw [decide_eq_false below, Bool.and_false, Bool.false_and]
  refine ⟨timer, ?_⟩
  show occurIf (finds && decide (timer = stallTop s.tx) && !s.tx.stallMark) .rlStall none (s.mapTx fun t =>
    { t with stallTimer := timer, stallMark := t.stallMark || (finds && decide (timer = stallTop s.tx) && !s.tx.stallMark) }) = _
  rw [quiet, occurIf, if_neg Bool.false_ne_true]
  simp only [State.mapTx, Bool.or_false]

/-! ## The frame -/

/-- The frame is its accept, made at the crossing the frame brings; besides it moves the lock counter, the scan and the stall
timer. -/
theorem timingFrame_acceptAlone (h : AcceptAlone f s) :
    ∃ c i timer n, timingFrame f s =
      let u := acceptArrival (if frameEvclear f then 0 else s.timing.event) { s with timing := s.timing.received f }
      { u with clk := c, integ := i, tx := { u.tx with stallTimer := timer }, freeIndex := n } := by
  obtain ⟨locked, good, accept, unmarked, unasked, gate, idle, unexpired, stall⟩ := h
  have received := receiverFrame_unmarked locked good unmarked
  have flags := fastCommands_act locked good
  have serial : (s.timing.received f).serial = s.timing.serial + 1 := by
    rw [← timingFrame_serial f s, timingFrame_timing]
  have untrained : s.inj.state.inTrain = false := by rcases idle with h | h <;> rw [h] <;> rfl
  have unexpired : ∀ p ∈ s.inj.pending, expired (lookBack s.acq) (s.timing.received f).serial p = false := by
    rw [serial]; exact unexpired
  let v : State := { s with timing := s.timing.received f }
  have order : actOrder (flagsOf f) v = frameActs := by
    refine actOrder_none (frameConds_none ?_ untrained unasked gate stall) ?_
    · exact List.any_eq_false.2 fun p hp => by rw [unexpired p hp]; exact Bool.false_ne_true
    · rw [listRace, show v.inj.state.inTrain = false from untrained, show (flagsOf f).pulsereq = false from unasked,
        Bool.or_false, Bool.and_false]
  obtain ⟨c, moved⟩ : ∃ c i, scanTick (lockTick (!clockPresent s) v) = aside c i v := by
    obtain ⟨lock, n, ticked⟩ := lockTick_eq (!clockPresent s) v
    rw [ticked]
    obtain ⟨i, scanned⟩ := scanTick_counting (s := { v with clk := { v.clk with state := lock, lockCount := n } }) gate
    exact ⟨_, i, scanned⟩
  obtain ⟨i, moved⟩ := moved
  let number : EventNum := if frameEvclear f then 0 else s.timing.event
  have acted : frameActed f s = stallTick (waiting s || (waiting (acceptArrival number (aside c i v)) &&
      Config.stallAfterAccept s.freeIndex)) (acceptArrival number (aside c i v)) := by
    have context : frameContext f s =
        { fc := flagsOf f, number := number, starts := !clockPresent s, before := s.inj.state, wasWaiting := waiting s,
          index := s.freeIndex } := by
      rw [frameContext, flags]
      rfl
    have still : expirePulses (aside c i v) = aside c i v := expirePulses_none unexpired
    have unfired : fireDue (aside c i v) = aside c i v := fireDue_none idle
    rw [frameActed, received, flags, order, context]
    simp only [frameActs, List.foldl_cons, List.foldl_nil, frameAct]
    rw [moved, still, unfired, show (flagsOf f).pulsereq = false from unasked, show (flagsOf f).accept = true from accept,
      if_neg Bool.false_ne_true, if_pos rfl]
  have kept := acceptArrival_kept number (aside c i v)
  obtain ⟨timer, stalled⟩ := stallTick_timer (s := acceptArrival number (aside c i v))
    (waiting s || (waiting (acceptArrival number (aside c i v)) && Config.stallAfterAccept s.freeIndex))
    (by rw [kept.stallMark, kept.stallTimer, kept.stallLimit]; exact stall)
  refine ⟨c, i, timer, (acceptArrival number (aside c i v)).freeIndex + 1, ?_⟩
  rw [timingFrame_eq, acted, stalled, acceptArrival_aside]
  rfl

end

end Sys2Proof.Machine
end


section
/-!
Gaps, the trigger rule, and the accept of a timing-link frame.
-/

namespace Sys2Proof.Machine

section

variable {s : State} {e : EventNum} {f : Byte}

/-! ## Gaps (R58, R59) -/

/-- An accept that is no rule violation, as a gap. -/
def gapState (e : EventNum) (s : State) : State := makeGap (checkedState e false s)

theorem acceptArrival_decides (free : ruleViolated s.aq s.timing.serial = false) :
    acceptArrival e s = decideAccept e false (checkedState e false s) := by
  have accept : acceptArrival e s = decideAccept e (ruleViolated s.aq s.timing.serial) (ruleCheck e (countSeen s)) := rfl
  rw [accept, free, ruleCheck_exact free.symm fun h => absurd h Bool.false_ne_true]

theorem acceptArrival_full (free : ruleViolated s.aq s.timing.serial = false) (full : 32 ≤ s.aq.records.length) :
    acceptArrival e s = occur .aqOverflow (some e) (gapState e s) := by
  rw [acceptArrival_decides free, decideAccept]
  exact if_pos full

theorem recordKind_rested {v : Bool} (h : s.acq.state = .standby ∨ s.acq.state = .draining) : recordKind v s = none := by
  unfold recordKind
  rcases h with h | h <;> rw [h]

theorem acceptArrival_rested (free : ruleViolated s.aq s.timing.serial = false) (room : s.aq.records.length < 32)
    (rested : s.acq.state = .standby ∨ s.acq.state = .draining) : acceptArrival e s = gapState e s := by
  have gap : recordKind false (checkedState e false s) = none := recordKind_rested rested
  rw [acceptArrival_decides free, decideAccept, gap]
  exact if_neg (Nat.not_le.2 room)

/-- A gap takes the count of the accept and the counters that go with it. -/
theorem acceptArrival_gapped (free : ruleViolated s.aq s.timing.serial = false)
    (gap : s.aq.records.length = 32 ∨ s.acq.state = .standby ∨ s.acq.state = .draining) :
    (acceptArrival e s).aq.records = s.aq.records ∧ (acceptArrival e s).aq.snaps = s.aq.snaps ∧
      (acceptArrival e s).aq.gap = bump 65535 s.aq.gap ∧ (acceptArrival e s).inj = s.inj ∧
      (acceptArrival e s).cond.counters =
        { s.cond.counters with accSeen := s.cond.counters.accSeen + 1, accNoRec := s.cond.counters.accNoRec + 1 } := by
  by_cases full : 32 ≤ s.aq.records.length
  · rw [acceptArrival_full free full]
    have only := occur_only .aqOverflow (some e) (gapState e s)
    have calm := Calm.only only
    exact ⟨calm.records, calm.snaps, (congrArg AcceptQueue.gap calm.aq :), only.inj, occur_counters _ _ _⟩
  · rw [acceptArrival_rested free (Nat.not_le.1 full) (gap.resolve_left fun h => full h.ge)]
    exact ⟨rfl, rfl, rfl, rfl, rfl⟩

/-- The condition of an accept that finds the list full (R58). -/
theorem acceptArrival_overflow (free : ruleViolated s.aq s.timing.serial = false) (full : s.aq.records.length = 32) :
    (acceptArrival e s).cond.recs[(4 : Fin 25)] = s.cond.recs[(4 : Fin 25)].occur (some e) := by
  rw [acceptArrival_full free full.ge]
  exact occur_rec .aqOverflow (some e) (gapState e s)

/-! ## The trigger rule (R56) -/

theorem ruleViolated_full {oldest : Serial} {rest : List Serial} (history : s.aq.history = oldest :: rest)
    (full : s.aq.history.length = s.aq.ruleK) (now : Serial) :
    ruleViolated s.aq now = decide ((now - oldest).toNat < s.aq.ruleW) := by
  have some : 1 ≤ s.aq.ruleK := by rw [← full, history]; simp
  unfold ruleViolated
  rw [history] at full ⊢
  simp [full, some]

theorem ruleHistory_full {oldest : Serial} {rest : List Serial} (history : s.aq.history = oldest :: rest)
    (full : s.aq.history.length = s.aq.ruleK) (now : Serial) : ruleHistory s.aq now = rest ++ [now] := by
  have some : s.aq.ruleK ≠ 0 := by rw [← full, history]; simp
  rw [ruleHistory, if_neg some, if_pos full.ge, history]
  rfl

theorem ruleCheck_history (e : EventNum) (s : State) : (ruleCheck e s).aq.history = ruleHistory s.aq s.timing.serial := by
  unfold ruleCheck
  split
  · have calm := Calm.only
      ((occur_only .ruleViol (some e) s).trans (tally_only (fun c => { c with ruleV := c.ruleV + 1 }) _))
    show ruleHistory (tally _ (occur .ruleViol (some e) s)).aq s.timing.serial = _
    rw [calm.aq]
    rfl
  · rfl

theorem ruleCheck_violated (violated : ruleViolated s.aq s.timing.serial = true) :
    (ruleCheck e s).cond = (tally (fun c => { c with ruleV := c.ruleV + 1 }) (occur .ruleViol (some e) s)).cond := by
  rw [ruleCheck, if_pos violated]
  rfl

theorem ruleCheck_free (free : ruleViolated s.aq s.timing.serial = false) : (ruleCheck e s).cond = s.cond := by
  rw [ruleCheck, if_neg (Bool.eq_false_iff.1 free)]
  rfl

/-! ## The accept of a frame (R26, R32) -/

theorem exec_timingFrame (f : Byte) (s : State) : exec (.timingFrame f) s = .next (timingFrame f (beforeEvent s)) := rfl

/-- The crossing a frame with an accept and without TURNMARK brings. -/
theorem AcceptAlone.timing (h : AcceptAlone f s) :
    (s.timing.received f).serial = s.timing.serial + 1 ∧
      (s.timing.received f).counter =
        (if s.timing.counter + 1 < s.timing.turnLength then s.timing.counter + 1 else 0) ∧
      (s.timing.received f).turnLength = s.timing.turnLength ∧ (s.timing.received f).aligned = s.timing.aligned ∧
      (s.timing.received f).event = (if frameEvclear f then 0 else s.timing.event) + 1 := by
  obtain ⟨locked, good, accept, unmarked, -⟩ := h
  rw [Timing.received_act locked good]
  obtain ⟨serial, turnLength, -⟩ :=
    Timing.commanded_fixed (flagsOf f) ({ s.timing with lastTaken := s.timing.candidate, failCount := 0 }.advance)
  obtain ⟨counter, aligned⟩ := Timing.commanded_unmarked (fc := flagsOf f)
    ({ s.timing with lastTaken := s.timing.candidate, failCount := 0 }.advance) unmarked
  refine ⟨serial, counter, turnLength, aligned, ?_⟩
  rw [Timing.commanded_event, show (flagsOf f).accept = true from accept]
  rfl

end

/-! ## The settling theorem -/

/-- Settles O26: a gap by its two causes, the rule check by the oldest serial, and the frame as the accept it makes. -/
theorem gapsAndRuleViolations : Obligations.GapsAndRuleViolations := by
  refine ⟨?_, ?_, ?_⟩
  · intro e s free t
    refine ⟨acceptArrival_gapped free, fun full => ?_, fun room rested => ?_⟩
    · have row := acceptArrival_overflow (e := e) free full
      exact ⟨(congrArg CondRec.latch row).trans rfl, (congrArg CondRec.count row).trans rfl,
        fun clear => (congrArg CondRec.first row).trans (if_neg (Bool.eq_false_iff.1 clear))⟩
    · have gap : t = gapState e s := acceptArrival_rested free room rested
      rw [gap]
      exact ⟨rfl, rfl, rfl⟩
  · intro e s oldest rest history full t
    have violated := ruleViolated_full history full s.timing.serial
    refine ⟨?_, fun early => ?_, fun late => ?_⟩
    · exact (ruleCheck_history e s).trans (ruleHistory_full history full _)
    · have cond := ruleCheck_violated (e := e) (violated.trans (decide_eq_true early))
      have row := (congrArg (fun d : CondTable => d.recs[(6 : Fin 25)]) cond).trans (occur_rec .ruleViol (some e) s)
      exact ⟨(congrArg CondRec.latch row).trans rfl, (congrArg CondRec.count row).trans rfl,
        (congrArg CondTable.counters cond).trans (by rw [tally_cond, occur_counters])⟩
    · exact ruleCheck_free (violated.trans (decide_eq_false (Nat.not_lt.2 late)))
  · intro f s0 s alone free e
    obtain ⟨c, i, timer, n, frame⟩ := timingFrame_acceptAlone alone
    obtain ⟨serial, -, -, -, event⟩ := alone.timing
    have free : ruleViolated s.aq (s.timing.received f).serial = false := by rw [serial]; exact free
    have kept := acceptArrival_kept e { s with timing := s.timing.received f }
    refine ⟨_, (exec_timingFrame f s0).trans (congrArg _ frame), ?_, ?_, fun gap => ?_, fun full => ?_⟩
    · exact (congrArg Timing.serial kept.timing).trans serial
    · exact (congrArg Timing.event kept.timing).trans event
    · obtain ⟨records, snaps, gap, -, counters⟩ :=
        acceptArrival_gapped (e := e) (s := { s with timing := s.timing.received f }) free gap
      exact ⟨records, snaps, gap, counters⟩
    · have row := acceptArrival_overflow (e := e) (s := { s with timing := s.timing.received f }) free full
      exact ⟨(congrArg CondRec.latch row).trans rfl,
        fun clear => (congrArg CondRec.first row).trans (if_neg (Bool.eq_false_iff.1 clear))⟩

end Sys2Proof.Machine
end


section
/-!
Accepts that become records.
-/

namespace Sys2Proof.Machine

section

variable {s w : State} {e : EventNum} {v : Bool} {kind : RecordKind} {k : Fin 16}

/-! ## Which record (R60) -/

/-- The reasons for which an accept becomes a NOSNAP record, in the order in which they are tried. -/
def NosnapDue (v : Bool) (s : State) (reason : NosnapReason) : Prop :=
  s.acq.state = .priming ∧ reason = .unprimed ∨ s.acq.state = .suspended ∧ reason = .suspended ∨
    s.acq.state = .running ∧ (v = true ∧ s.aq.degrade = true) ∧ reason = .rule ∨
    s.acq.state = .running ∧ ¬(v = true ∧ s.aq.degrade = true) ∧ (∀ k : Fin 16, s.aq.snaps[k] ≠ none) ∧ reason = .noslot

theorem recordKind_nosnap {reason : NosnapReason} (h : NosnapDue v s reason) :
    recordKind v s = some (.nosnap reason) := by
  unfold recordKind
  rcases h with ⟨state, rfl⟩ | ⟨state, rfl⟩ | ⟨state, ⟨violated, degrade⟩, rfl⟩ | ⟨state, undegraded, held, rfl⟩
  · rw [state]
  · rw [state]
  · rw [state, violated, degrade]
    rfl
  · have kept : (v && s.aq.degrade) = false := by simpa [← Bool.and_eq_true] using undegraded
    simp only [state, kept, lowestFree_none held, Bool.false_eq_true, if_false]

theorem recordKind_full (state : s.acq.state = .running) (undegraded : ¬(v = true ∧ s.aq.degrade = true))
    (free : s.aq.snaps[k] = none) (lower : ∀ j : Fin 16, j < k → s.aq.snaps[j] ≠ none) :
    recordKind v s = some (.full k) := by
  have kept : (v && s.aq.degrade) = false := by simpa [← Bool.and_eq_true] using undegraded
  simp only [recordKind, state, kept, lowestFree_first free lower, Bool.false_eq_true, if_false]

/-- The kinds of record for which no entry is handed over: one of the four reasons, or an empty list. -/
def AtOnceDue (v : Bool) (s : State) (entries : List Entry) (kind : RecordKind) : Prop :=
  (s.acq.state = .priming ∧ kind = .nosnap .unprimed) ∨ (s.acq.state = .suspended ∧ kind = .nosnap .suspended) ∨
    (s.acq.state = .running ∧ (v = true ∧ s.aq.degrade = true) ∧ kind = .nosnap .rule) ∨
    (s.acq.state = .running ∧ ¬(v = true ∧ s.aq.degrade = true) ∧ (∀ k : Fin 16, s.aq.snaps[k] ≠ none) ∧
      kind = .nosnap .noslot) ∨
    (s.acq.state = .running ∧ ¬(v = true ∧ s.aq.degrade = true) ∧ entries = [] ∧
      ∃ k : Fin 16, s.aq.snaps[k] = none ∧ (∀ j : Fin 16, j < k → s.aq.snaps[j] ≠ none) ∧ kind = .full k)

theorem recordKind_atOnce {entries : List Entry} (due : AtOnceDue v s entries kind) :
    recordKind v s = some kind ∧ s.acq.state ≠ .draining ∧ (kind.slot? = none ∨ entries = []) ∧
      ∀ k, kind = .full k → s.aq.snaps[k] = none := by
  have nosnap {reason : NosnapReason} (kinds : kind = .nosnap reason) (h : NosnapDue v s reason) :
      recordKind v s = some kind ∧ s.acq.state ≠ .draining ∧ (kind.slot? = none ∨ entries = []) ∧
        ∀ k, kind = .full k → s.aq.snaps[k] = none := by
    subst kinds
    have becomes := recordKind_nosnap h
    exact ⟨becomes, (recordKind_some becomes).2, .inl rfl, fun k no => absurd no (by simp)⟩
  rcases due with ⟨state, kinds⟩ | ⟨state, kinds⟩ | ⟨state, degraded, kinds⟩ | ⟨state, undegraded, held, kinds⟩ |
    ⟨state, undegraded, empty, k, free, lower, kinds⟩
  · exact nosnap kinds (.inl ⟨state, rfl⟩)
  · exact nosnap kinds (.inr (.inl ⟨state, rfl⟩))
  · exact nosnap kinds (.inr (.inr (.inl ⟨state, degraded, rfl⟩)))
  · exact nosnap kinds (.inr (.inr (.inr ⟨state, undegraded, held, rfl⟩)))
  · subst kinds
    exact ⟨recordKind_full state undegraded free lower, by simp [state], .inr empty,
      fun j same => RecordKind.full.inj same ▸ free⟩

/-! ## The record in its slot (R61 to R64, R69) -/

theorem Recorded.made_full (h : Recorded e false (.full k) s w) (free : s.aq.snaps[k] = none) :
    (∀ j : Fin 16, j ≠ k → w.aq.snaps[j] = s.aq.snaps[j]) ∧ w.aq.snaps[k] = some (capture s) ∧
      (s.aq.hi ≤ slotsInUse s + 1 → w.aq.throttle = true) ∧
      (slotsInUse s + 1 < s.aq.hi → w.aq.throttle = s.aq.throttle) ∧
      w.cond.counters =
        { s.cond.counters with accSeen := s.cond.counters.accSeen + 1, recMade := s.cond.counters.recMade + 1 } ∧
      w.acq = s.acq ∧ w.cond.recs = s.cond.recs := by
  have snaps : w.aq.snaps = put s.aq.snaps k (some (capture s)) := h.snaps
  have slot : (RecordKind.full k).slot? ≠ none := Option.some_ne_none k
  have throttle := h.throttle slot
  rw [show fillSlot (.full k) (capture s) s.aq.snaps = put s.aq.snaps k (some (capture s)) from rfl,
    usedSlots_put _ free] at throttle
  refine ⟨fun j other => ?_, ?_, fun high => ?_, fun low => ?_, h.counters.trans ?_, h.acq slot, h.others (by simp)⟩
  · rw [snaps, getElem_put, if_neg other]
  · rw [snaps, getElem_put, if_pos rfl]
  · rw [throttle, decide_eq_true (show s.aq.hi ≤ usedSlots s.aq.snaps + 1 from high), Bool.or_true]
  · rw [throttle, decide_eq_false (Nat.not_le.2 (show usedSlots s.aq.snaps + 1 < s.aq.hi from low)), Bool.or_false]
  · simp [RecordKind.slot?]

/-- With an entry in flight the builder waits for it, and the record behind the others is all that an accept brings. -/
theorem Recorded.waits {b : Build} (h : Recorded e v kind s w) (building : s.builder.state = .building b)
    (busy : s.builder.inFlight.isSome = true) : settleBuilder w = w :=
  settleBuilder_building w b (h.builder ▸ building) (h.builder ▸ busy)

/-- A full record in RUNNING without a rule violation, with a build under way. -/
theorem acceptArrival_full_waits {b : Build} (state : s.acq.state = .running) (room : s.aq.records.length < 32)
    (free : s.aq.snaps[k] = none) (lower : ∀ j : Fin 16, j < k → s.aq.snaps[j] ≠ none)
    (unviolated : ruleViolated s.aq s.timing.serial = false) (building : s.builder.state = .building b)
    (busy : s.builder.inFlight.isSome = true) : Recorded e false (.full k) s (acceptArrival e s) := by
  obtain ⟨w, accept, made⟩ := acceptArrival_recorded (e := e) unviolated.symm (fun h => absurd h Bool.false_ne_true) room
    (recordKind_full state (fun h => absurd h.1 Bool.false_ne_true) free lower)
  rw [accept, made.waits building busy]
  exact made

/-! ## A record that an IDLE builder takes (R136, R141, R143, R145) -/

theorem Recorded.made_record (h : Recorded e v kind s w) (records : s.aq.records = []) :
    w.aq.records = [newRecord e v kind s] := by
  rw [h.records, records]
  rfl

/-- The slot filled by the record is free again once its fragment is appended. -/
theorem Recorded.slots_again {t : State} (h : Recorded e v kind s w) (free : ∀ k, kind = .full k → s.aq.snaps[k] = none)
    (appended : ∀ j : Fin 16, t.aq.snaps[j] = if kind = .full j then none else w.aq.snaps[j]) :
    t.aq.snaps = s.aq.snaps := by
  refine Vector.ext fun n hn => (appended ⟨n, hn⟩).trans ?_
  rw [h.snaps]
  by_cases slot : kind = .full ⟨n, hn⟩
  · rw [if_pos slot]
    exact (free _ slot).symm
  · rw [if_neg slot]
    cases kind with
    | nosnap reason => rfl
    | full k =>
      rw [fillSlot, getElem_put, if_neg fun same => slot (congrArg RecordKind.full same.symm)]
      rfl

end

/-! ## The settling theorem -/

/-- Settles O25: the record made and the builder's part after it, and the frame as the accept it makes. -/
theorem acceptMakesFullRecord : Obligations.AcceptMakesFullRecord := by
  refine ⟨?_, ?_, ?_, ?_, ?_⟩
  · intro e s k b state room free lower unviolated building busy r span t
    have made : Recorded e false (.full k) s t := acceptArrival_full_waits state room free lower unviolated building busy
    obtain ⟨others, filled, high, low, counters, acq, recs⟩ := made.made_full free
    refine ⟨made.records, made.gap, made.inj, others, ⟨capture s, filled, fun c => ?_⟩, counters, high, low, made.pipe,
      made.builder, acq, recs⟩
    rw [capture, getElem_tab]
    exact ⟨rfl, rfl, rfl, rfl, rfl⟩
  · intro e s b reason room building busy v outside due r span t
    obtain ⟨w, accept, made⟩ := acceptArrival_recorded (e := e) (v := v) rfl outside room (recordKind_nosnap due)
    have t_eq : t = w := accept.trans (made.waits building busy)
    clear_value t
    subst t_eq
    refine ⟨made.records, made.gap, made.snaps, made.inj, made.counters, fun noslot => ?_, fun other => ?_, made.pipe,
      made.builder⟩
    · have row := made.noSlot (congrArg RecordKind.nosnap noslot)
      exact ⟨(congrArg CondRec.latch row).trans rfl, (congrArg CondRec.count row).trans rfl,
        fun clear => (congrArg CondRec.first row).trans (if_neg (Bool.eq_false_iff.1 clear))⟩
    · have recs := made.others fun h => other (RecordKind.nosnap.inj h)
      exact (congrArg (fun d : Vector CondRec 25 => d[(5 : Fin 25)]) recs).trans
        (checkedTable_rec_other e v s.cond (by decide))
  · intro e s k x xs state records idle free lower unviolated entries t
    obtain ⟨w, accept, made⟩ := acceptArrival_recorded (e := e) unviolated.symm (fun h => absurd h Bool.false_ne_true)
      (by rw [records]; decide) (recordKind_full state (fun h => absurd h.1 Bool.false_ne_true) free lower)
    have listed := made.made_record records
    have active : w.list.entered.active = x :: xs := by rw [made.list, ReadoutList.entered_active]; exact entries
    have handed := startRecord_handed (s := w) (r := newRecord e false (.full k) s) rfl active
    have settled := (RestsAfter.start (s := w) (made.builder ▸ idle) listed
      (.building (b := newBuild (newRecord e false (.full k) s) w.list) (by rw [handed]) (by rw [handed]; rfl))).settles
        (by omega)
    have t_eq : t = startRecord (newRecord e false (.full k) s) w := accept.trans settled
    rw [t_eq, handed, made.list, newBuild_eq]
    exact ⟨_, listed, rfl, rfl, rfl, rfl, rfl⟩
  · intro e s kind records idle v entries outside due room t
    obtain ⟨becomes, running, none, free⟩ := recordKind_atOnce due
    obtain ⟨w, accept, made⟩ := acceptArrival_recorded (e := e) (v := v) rfl outside (by rw [records]; decide) becomes
    have listed := made.made_record records
    have none : (newRecord e v kind s).kind.slot? = Option.none ∨ w.list.entered.active = [] :=
      none.imp_right fun h => by rw [made.list, ReadoutList.entered_active]; exact h
    have appended := appendFragment_appended (b := newBuild (newRecord e v kind s) w.list)
      (s := readyAtOnce (newRecord e v kind s) w) listed (.inl fun h => running (made.draining h))
    have settled := (RestsAfter.start_ready (s := w) (made.builder ▸ idle) listed none
      (.append rfl (fits_iff.2 (made.buffer ▸ room)) appended.rests)).settles (by simp [listed])
    have t_eq : t = _ := accept.trans settled
    clear_value t
    subst t_eq
    have list : w.list.entered = s.list.entered := by rw [made.list]
    refine ⟨appended.records, made.slots_again free appended.snaps, appended.gap.trans made.gap, appended.builder, ?_,
      ⟨newRecord e v kind s, rfl, rfl, rfl, rfl, ?_⟩, ?_⟩
    · refine appended.list.trans (Eq.trans ?_ s.list.entered_cleared)
      exact congrArg (fun l : ReadoutList => { l with swap := false }) list
    · rw [CondTable.summary_congr (congrArg CondTable.recs appended.cond :), appended.list]
      refine appended.buffer.trans ?_
      rw [newBuild, ReadoutList.entered_swap, show (readyAtOnce (newRecord e v kind s) w).tx = w.tx from rfl, made.buffer,
        made.sourceId, made.list]
      rw [← list]
      rfl
    · refine (congrArg CondTable.counters appended.cond :).trans ?_
      rw [show (readyAtOnce (newRecord e v kind s) w).cond = w.cond from rfl, made.counters]
      rfl
  · intro f s0 s alone e now
    obtain ⟨c, i, timer, n, frame⟩ := timingFrame_acceptAlone alone
    obtain ⟨serial, counter, turnLength, aligned, event⟩ := alone.timing
    have kept := acceptArrival_kept e { s with timing := s.timing.received f }
    refine ⟨_, (exec_timingFrame f s0).trans (congrArg _ frame), (congrArg Timing.serial kept.timing).trans serial,
      (congrArg Timing.counter kept.timing).trans counter, (congrArg Timing.aligned kept.timing).trans aligned,
      (congrArg Timing.event kept.timing).trans event, kept.pipe, ?_, ?_⟩
    · intro u
      have u_eq : u = acceptArrival e { s with timing := s.timing.received f } :=
        congrArg (fun x => acceptArrival e { s with timing := x }) kept.timing
      clear_value u
      subst u_eq
      exact ⟨rfl, rfl, rfl, rfl, rfl, rfl, rfl⟩
    · intro k b state room free lower unviolated building busy
      have made := acceptArrival_full_waits (e := e) (s := { s with timing := s.timing.received f }) state room free lower
        (by rw [serial]; exact unviolated) building busy
      refine ⟨_, made.records, rfl, rfl, rfl, ?_, ?_, ?_⟩
      · exact congrArg (· - _) serial
      · show ((((s.timing.received f).counter : Int) - _) % ((s.timing.received f).turnLength : Int)).toNat = _
        rw [counter, turnLength]
      · exact congrArg (! ·) aligned

end Sys2Proof.Machine
end
